-- ==== Sys2Proof/Word.lean ====
section
/-! DEFINITION. Word.lean: the data the block works on: bytes, the 16-bit quantities, the 9-byte frame, the 5-byte
payload, the command type and the two directions in which words reach the block. Types only. -/

namespace Sys2Proof

/-- A byte, an unsigned integer 0..255 (spec/00_scope.md section 5). -/
abbrev Byte := BitVec 8

/-- A u16, 0..65535 (spec/00_scope.md section 5): the range value and the concentration, the only 16-bit quantities (R35). -/
abbrev U16 := BitVec 16

/-- A frame: nine bytes, index 0 first on the wire in either direction (R47, R48, R36, R37). -/
structure Frame where
  f0 : Byte
  f1 : Byte
  f2 : Byte
  f3 : Byte
  f4 : Byte
  f5 : Byte
  f6 : Byte
  f7 : Byte
  f8 : Byte
  deriving DecidableEq, Repr

/-- The five payload bytes of a command frame, `p[i] = f[3+i]` (spec/00_scope.md section 5). -/
structure Payload where
  p0 : Byte
  p1 : Byte
  p2 : Byte
  p3 : Byte
  p4 : Byte
  deriving DecidableEq, Repr

/-- The parameter of `AUTO_CAL`, "enumerated {Enable, Disable}" (R52, R83). -/
inductive CalState where
  | enable
  | disable
  deriving DecidableEq, Repr

/-- The parameter of `SET_RANGE`, "an enumerated value over {1000, 2000, 3000, 5000, 10000} ppm" (R53, R83, R95). -/
inductive PpmRange where
  | ppm1000
  | ppm2000
  | ppm3000
  | ppm5000
  | ppm10000
  deriving DecidableEq, Repr

/-- The command type: five constructors, ten values in all (R83). -/
inductive Command where
  | readCo2
  | zeroCal
  | spanCal
  | autoCal (state : CalState)
  | setRange (range : PpmRange)
  deriving DecidableEq, Repr

/-- The only failure of `DecodeValidate` (R76, R115). -/
inductive CodecError where
  | checksumError
  deriving DecidableEq, Repr

/-- An instruction word together with the place where it stands: the two formats of R47, the frame format with its
direction ("block to sensor", "sensor to block" in spec/opcode_table.json). The direction is no bit of a frame: the same
nine bytes mean a command frame on the TX stream and a response on the RX stream (R42, log 11). -/
inductive Packet where
  | req (w : BitVec 6)   -- the request word on the port `REQ` (R19, R55)
  | tx (f : Frame)       -- nine bytes on the TX stream, block to sensor (R25, R27)
  | rx (f : Frame)       -- nine bytes on the RX stream, sensor to block (R25, R28)
  deriving DecidableEq, Repr

end Sys2Proof
end

