-- ==== Sys2Proof/Config.lean ====
section
/-! DEFINITION. Config.lean: what one implementation fixes and the model does not read from a run: the sizes of R7 that
every type of the model is built on, and the free value. The literals of R7 that a corrected source could change (start
byte, address, opcodes, calibration bytes, checksum constant, field indices) stand in Machine/Params.lean. -/

namespace Sys2Proof

/-- `FRAME_LEN` (R7): bytes in a frame, both directions. -/
def Config.frameLen : Nat := 9

/-- `SUM_LEN` (R7): bytes summed by CHK, frame indices 0 to 7. -/
def Config.sumLen : Nat := 8

/-- `PAYLOAD_LEN` (R7): payload bytes, frame indices 3 to 7. -/
def Config.payloadLen : Nat := 5

/-- FREE VALUE (log 3): the value the n-th open read of `CONC` returns. R18: outside `PH = Done` with `CMDL = READ_CO2`
"a read of `CONC` returns any value and a model must treat it as a draw, not as a number" (also V2 of
spec/93_implementation_defined.md). It has no body: nothing can be proved of its value. -/
opaque Config.freeConc : Nat → U16

end Sys2Proof
end

