-- ==== Sys2Proof/Machine/Params.lean ====
section
/-! DEFINITION. Machine/Params.lean: the literals of the parameter table R7, each named once so that a corrected literal
changes one line (V8 of spec/93_implementation_defined.md asks for it). -/

namespace Sys2Proof.Machine

/-- `START`, frame index 0 on send. -/
def Param.start : Byte := 0xFF

/-- `ADDR`, frame index 1 on send. -/
def Param.addr : Byte := 0x01

/-- `OP_READ_CO2` (R51). -/
def Param.opReadCo2 : Byte := 0x86

/-- `OP_ZERO_CAL` (R51). -/
def Param.opZeroCal : Byte := 0x87

/-- `OP_SPAN_CAL` (R51). -/
def Param.opSpanCal : Byte := 0x88

/-- `OP_AUTO_CAL` (R51). -/
def Param.opAutoCal : Byte := 0x79

/-- `OP_SET_RANGE` (R51). -/
def Param.opSetRange : Byte := 0x99

/-- `ACAL_ENABLE`, payload byte 0 for Enable (R52). -/
def Param.acalEnable : Byte := 0xA0

/-- `ACAL_DISABLE`, payload byte 0 for Disable (R52). -/
def Param.acalDisable : Byte := 0x00

/-- `CK_CONST`, the constant the 8-bit sum is subtracted from (R66; spec/90_conflicts.md C1). -/
def Param.ckConst : Byte := 255

/-- `CONC_HI_INDEX` (R79; the spec's decision D10, spec/90_conflicts.md C2). -/
def Param.concHiIndex : Fin 9 := 2

/-- `CONC_LO_INDEX` (R79; the spec's decision D10, spec/90_conflicts.md C2). -/
def Param.concLoIndex : Fin 9 := 3

/-- The five opcodes, the only values `op` takes in a command frame (R51, R59). -/
def Param.opcodes : List Byte :=
  [Param.opReadCo2, Param.opZeroCal, Param.opSpanCal, Param.opAutoCal, Param.opSetRange]

end Sys2Proof.Machine
end

