-- ==== Sys2Proof/Machine/Operands.lean ====
section
/-! DEFINITION. Machine/Operands.lean: reading and writing the bytes of a frame, and every operand form of the spec: the
calibration byte (R52), the range value (R53, R84), the zero payload (R54) and the concentration field (R64, R79). -/

namespace Sys2Proof

/-- Byte `i` of a frame (R26: the buffer space has the nine addresses 0 to 8). -/
def Frame.get (f : Frame) (i : Fin 9) : Byte :=
  match i with
  | 0 => f.f0
  | 1 => f.f1
  | 2 => f.f2
  | 3 => f.f3
  | 4 => f.f4
  | 5 => f.f5
  | 6 => f.f6
  | 7 => f.f7
  | 8 => f.f8

/-- The frame with byte `i` replaced by `v`. -/
def Frame.set (f : Frame) (i : Fin 9) (v : Byte) : Frame :=
  match i with
  | 0 => { f with f0 := v }
  | 1 => { f with f1 := v }
  | 2 => { f with f2 := v }
  | 3 => { f with f3 := v }
  | 4 => { f with f4 := v }
  | 5 => { f with f5 := v }
  | 6 => { f with f6 := v }
  | 7 => { f with f7 := v }
  | 8 => { f with f8 := v }

/-- The nine bytes in wire order, index 0 first (R36, R37). -/
def Frame.bytes (f : Frame) : List Byte :=
  [f.f0, f.f1, f.f2, f.f3, f.f4, f.f5, f.f6, f.f7, f.f8]

/-- The first eight bytes, the operand of `Sum8` and `CK` (R65; spec/90_conflicts.md C4). -/
def Frame.summed (f : Frame) : List Byte :=
  [f.f0, f.f1, f.f2, f.f3, f.f4, f.f5, f.f6, f.f7]

/-- The payload of the frame, `p[i] = f[3+i]`. -/
def Frame.payload (f : Frame) : Payload := ⟨f.f3, f.f4, f.f5, f.f6, f.f7⟩

/-- The payload bytes in frame order. -/
def Payload.bytes (p : Payload) : List Byte := [p.p0, p.p1, p.p2, p.p3, p.p4]

/-- The frame all of whose bytes are `v`. -/
def Frame.fill (v : Byte) : Frame := ⟨v, v, v, v, v, v, v, v, v⟩

namespace Machine

/-- The high byte of a 16-bit value, `v[15:8]`. -/
def hiByte (v : U16) : Byte := v.extractLsb' 8 8

/-- The low byte of a 16-bit value, `v[7:0]`. -/
def loByte (v : U16) : Byte := v.extractLsb' 0 8

/-- `RangeValue(r)` (R84): the range's own number of ppm. The value for 2000 is the source's; the other four are the
spec's decision D9 (log 17). -/
def rangeValue : PpmRange → U16
  | .ppm1000 => 1000
  | .ppm2000 => 2000
  | .ppm3000 => 3000
  | .ppm5000 => 5000
  | .ppm10000 => 10000

/-- Payload byte 0 of `AUTO_CAL` (R52). -/
def calByte : CalState → Byte
  | .enable => Param.acalEnable
  | .disable => Param.acalDisable

/-- Five zero bytes, the payload of the commands "with no meaningful payload" (R54; for `SPAN_CAL` the spec's decision
D8, log 17). -/
def zeroPayload : Payload := ⟨0, 0, 0, 0, 0⟩

/-- The payload of `AUTO_CAL` (R52): the state byte, "remaining four bytes zero". -/
def calPayload (c : CalState) : Payload := { zeroPayload with p0 := calByte c }

/-- The payload of `SET_RANGE` (R53, R34): three zero bytes, then the range value high byte first. -/
def rangePayload (r : PpmRange) : Payload :=
  { zeroPayload with p3 := hiByte (rangeValue r), p4 := loByte (rangeValue r) }

/-- `Conc(f)` (R79, R64): `zext_16(f[2]) << 8 | zext_16(f[3])`, big-endian, unsigned, total. -/
def conc (f : Frame) : U16 :=
  ((f.get Param.concHiIndex).zeroExtend 16 <<< 8) ||| (f.get Param.concLoIndex).zeroExtend 16

end Machine

end Sys2Proof
end

