-- ==== Sys2Proof/Machine/Checksum.lean ====
section
/-! DEFINITION. Machine/Checksum.lean: the checksum unit CHK (spec/40_checksum.md): `Sum8`, `CK` and `Valid`, pure
functions of their operand bytes (R71). -/

namespace Sys2Proof.Machine

/-- `Sum8(b[0..7])` (R65): the first eight bytes added in 8 bits, carries discarded. It does not read `f[8]`. -/
def sum8 (f : Frame) : Byte :=
  f.f0 + f.f1 + f.f2 + f.f3 + f.f4 + f.f5 + f.f6 + f.f7

/-- `CK(b[0..7]) = 255 - Sum8(b)` (R66; spec/90_conflicts.md C1). -/
def ck (f : Frame) : Byte := Param.ckConst - sum8 f

/-- `CKn` (R72): the checksum of a byte sequence of any length, given for reference. `CK` is `CKn` at length 8. -/
def ckn (bs : List Byte) : Byte := Param.ckConst - bs.foldl (· + ·) 0

/-- `Valid(f[0..8])` (R68): the ninth byte equals the checksum recomputed over the first eight. -/
def valid (f : Frame) : Bool := ck f == f.f8

end Sys2Proof.Machine
end

