-- ==== Sys2Proof/Machine/Codec.lean ====
section
/-! DEFINITION. Machine/Codec.lean: the frame encoder and the frame decoder and validator CODEC (spec/41_frame_codec.md).
The field unpacker `Conc` stands with the operand forms in Machine/Operands.lean. -/

namespace Sys2Proof.Machine

/-- The nine bytes of a frame whose checksum byte is given: `START`, `ADDR`, opcode, payload, `ck` (R48, R49). -/
def rawFrame (op : Byte) (p : Payload) (c : Byte) : Frame :=
  ⟨Param.start, Param.addr, op, p.p0, p.p1, p.p2, p.p3, p.p4, c⟩

/-- `Encode(op, p)` (R73): total over all opcodes and payloads, and checks nothing (R74). -/
def encodeFrame (op : Byte) (p : Payload) : Frame :=
  rawFrame op p (ck (rawFrame op p 0))

/-- `DecodeValidate(f)` (R76): the raw nine bytes if the checksum agrees, else `ChecksumError`. It compares no other byte
with anything (R77). -/
def decodeValidate (f : Frame) : Except CodecError Frame :=
  if ck f = f.f8 then .ok f else .error .checksumError

end Sys2Proof.Machine
end

