-- ==== Sys2Proof/Machine/Mux.lean ====
section
/-! DEFINITION. Machine/Mux.lean: the command opcode and payload multiplexer MUX (spec/42_command_mux.md). -/

namespace Sys2Proof.Machine

/-- `Mux(c)` (R83, one rule per command value R85 to R94). -/
def mux : Command → Byte × Payload
  | .readCo2 => (Param.opReadCo2, zeroPayload)
  | .zeroCal => (Param.opZeroCal, zeroPayload)
  | .spanCal => (Param.opSpanCal, zeroPayload)
  | .autoCal c => (Param.opAutoCal, calPayload c)
  | .setRange r => (Param.opSetRange, rangePayload r)

/-- `BuildFrame(c) = Encode(Mux(c))` (R96): what acceptance stores into `BUF`. -/
def buildFrame (c : Command) : Frame := encodeFrame (mux c).1 (mux c).2

/-- The ten command values (R57, R83), in the order of the request words. -/
def allCommands : List Command :=
  [.readCo2, .zeroCal, .spanCal, .autoCal .disable, .autoCal .enable, .setRange .ppm1000, .setRange .ppm2000,
    .setRange .ppm3000, .setRange .ppm5000, .setRange .ppm10000]

/-- The command whose frame this is, if it is one of the ten (R96: the ten frames are pairwise different). -/
def commandOfFrame (f : Frame) : Option Command := allCommands.find? (fun c => buildFrame c = f)

end Sys2Proof.Machine
end

