-- ==== Sys2Proof/Syntax.lean ====
section
/-! DEFINITION. Syntax.lean: the instructions, one constructor per row of spec/opcode_table.json, in the table's order. -/

namespace Sys2Proof

/-- The 22 rows of spec/opcode_table.json. The first ten are the request words (R55 to R57); the next ten are the constant
command frames those commands put on the wire (R57); `frameTx` is the general command frame with its operand fields op, p0
to p4 and ck (R48, R73); `frameRx` is a response frame, no bit of which is fixed (R50, R76). -/
inductive Instr where
  | readCo2
  | zeroCal
  | spanCal
  | autoCalOff
  | autoCalOn
  | setRange1000
  | setRange2000
  | setRange3000
  | setRange5000
  | setRange10000
  | frameReadCo2
  | frameZeroCal
  | frameSpanCal
  | frameAutoCalOff
  | frameAutoCalOn
  | frameSetRange1000
  | frameSetRange2000
  | frameSetRange3000
  | frameSetRange5000
  | frameSetRange10000
  | frameTx (op : Byte) (p : Payload) (ck : Byte)
  | frameRx (f : Frame)
  deriving DecidableEq, Repr

end Sys2Proof
end

