-- ==== Sys2Proof/WellFormed.lean ====
section
/-! DEFINITION. WellFormed.lean: which instructions are instructions of the table. Only `FRAME.TX` has operands that can be
wrong: its opcode field is "one of 0x86 0x87 0x88 0x79 0x99 (rule R51)", its checksum field is "255 - (sum of the other eight
bytes mod 256) (rule R66)", and a frame that one of the ten constant rows spells is that row's, not this one's (log 11). -/

namespace Sys2Proof

/-- The opcode field is one of the five (R51, R59). -/
def WellFormed.opcodeOk (op : Byte) : Bool := Machine.Param.opcodes.contains op

/-- The checksum field is the checksum of the other eight bytes (R66). -/
def WellFormed.checksumOk (op : Byte) (p : Payload) (c : Byte) : Bool := Machine.valid (Machine.rawFrame op p c)

/-- The frame is none of the ten constant rows `FRAME.<command>`. -/
def WellFormed.notConstant (op : Byte) (p : Payload) (c : Byte) : Bool :=
  (Machine.commandOfFrame (Machine.rawFrame op p c)).isNone

/-- Well-formedness of an instruction. -/
def wellFormed : Instr → Bool
  | .readCo2 => true
  | .zeroCal => true
  | .spanCal => true
  | .autoCalOff => true
  | .autoCalOn => true
  | .setRange1000 => true
  | .setRange2000 => true
  | .setRange3000 => true
  | .setRange5000 => true
  | .setRange10000 => true
  | .frameReadCo2 => true
  | .frameZeroCal => true
  | .frameSpanCal => true
  | .frameAutoCalOff => true
  | .frameAutoCalOn => true
  | .frameSetRange1000 => true
  | .frameSetRange2000 => true
  | .frameSetRange3000 => true
  | .frameSetRange5000 => true
  | .frameSetRange10000 => true
  | .frameTx op p c =>
    WellFormed.opcodeOk op && WellFormed.checksumOk op p c && WellFormed.notConstant op p c
  | .frameRx _ => true

end Sys2Proof
end

