-- ==== Sys2Proof/Decode.lean ====
section
/-! DEFINITION. Decode.lean: the decoder, total on every packet and rejecting by name, and the encoder, both written from the
encodings of spec/opcode_table.json and spec/30_encoding.md. The ten constant frames are written out here from the table's
`match` values, not computed, so that a statement can hold them against `Encode(Mux(c))`. -/

namespace Sys2Proof

/-- Why a packet is no instruction. -/
inductive Reject where
  | reservedRequest   -- one of the 54 reserved request words (R56, R58)
  | badStart          -- TX stream: byte 0 is not the start marker 0xFF (R48, R49)
  | badAddress        -- TX stream: byte 1 is not the sensor address 0x01 (R48, R49)
  | unknownOpcode     -- TX stream: byte 2 is none of the five opcodes (R51, R59)
  | badChecksum       -- TX stream: byte 8 is not the checksum of the first eight (R49, R66)
  deriving DecidableEq, Repr

/-- `cmd = REQ[5:3]` (R55). -/
def reqCmd (w : BitVec 6) : BitVec 3 := w.extractLsb' 3 3

/-- `arg = REQ[2:0]` (R55). -/
def reqArg (w : BitVec 6) : BitVec 3 := w.extractLsb' 0 3

/-- `DecodeReq(w)` (R56), `none` for Reserved. The codes are the spec's decision D4. -/
def decodeReq (w : BitVec 6) : Option Command :=
  if reqCmd w = 0 ∧ reqArg w = 0 then some .readCo2
  else if reqCmd w = 1 ∧ reqArg w = 0 then some .zeroCal
  else if reqCmd w = 2 ∧ reqArg w = 0 then some .spanCal
  else if reqCmd w = 3 ∧ reqArg w = 0 then some (.autoCal .disable)
  else if reqCmd w = 3 ∧ reqArg w = 1 then some (.autoCal .enable)
  else if reqCmd w = 4 ∧ reqArg w = 0 then some (.setRange .ppm1000)
  else if reqCmd w = 4 ∧ reqArg w = 1 then some (.setRange .ppm2000)
  else if reqCmd w = 4 ∧ reqArg w = 2 then some (.setRange .ppm3000)
  else if reqCmd w = 4 ∧ reqArg w = 3 then some (.setRange .ppm5000)
  else if reqCmd w = 4 ∧ reqArg w = 4 then some (.setRange .ppm10000)
  else none

/-- The request row of a command value: the ten values of R83 are the ten `REQ` rows of the table. -/
def instrOfCommand : Command → Instr
  | .readCo2 => .readCo2
  | .zeroCal => .zeroCal
  | .spanCal => .spanCal
  | .autoCal .disable => .autoCalOff
  | .autoCal .enable => .autoCalOn
  | .setRange .ppm1000 => .setRange1000
  | .setRange .ppm2000 => .setRange2000
  | .setRange .ppm3000 => .setRange3000
  | .setRange .ppm5000 => .setRange5000
  | .setRange .ppm10000 => .setRange10000

/-- The rows `FRAME.<command>` whose payload is five zero bytes, or of `AUTO_CAL`, with the table's `match` values. -/
def plainFrames : List (Frame × Instr) :=
  [ (⟨0xFF, 0x01, 0x86, 0x00, 0x00, 0x00, 0x00, 0x00, 0x79⟩, .frameReadCo2),
    (⟨0xFF, 0x01, 0x87, 0x00, 0x00, 0x00, 0x00, 0x00, 0x78⟩, .frameZeroCal),
    (⟨0xFF, 0x01, 0x88, 0x00, 0x00, 0x00, 0x00, 0x00, 0x77⟩, .frameSpanCal),
    (⟨0xFF, 0x01, 0x79, 0x00, 0x00, 0x00, 0x00, 0x00, 0x86⟩, .frameAutoCalOff),
    (⟨0xFF, 0x01, 0x79, 0xA0, 0x00, 0x00, 0x00, 0x00, 0xE6⟩, .frameAutoCalOn) ]

/-- The rows `FRAME.SET_RANGE.<n>`, with the table's `match` values. -/
def rangeFrames : List (Frame × Instr) :=
  [ (⟨0xFF, 0x01, 0x99, 0x00, 0x00, 0x00, 0x03, 0xE8, 0x7B⟩, .frameSetRange1000),
    (⟨0xFF, 0x01, 0x99, 0x00, 0x00, 0x00, 0x07, 0xD0, 0x8F⟩, .frameSetRange2000),
    (⟨0xFF, 0x01, 0x99, 0x00, 0x00, 0x00, 0x0B, 0xB8, 0xA3⟩, .frameSetRange3000),
    (⟨0xFF, 0x01, 0x99, 0x00, 0x00, 0x00, 0x13, 0x88, 0xCB⟩, .frameSetRange5000),
    (⟨0xFF, 0x01, 0x99, 0x00, 0x00, 0x00, 0x27, 0x10, 0x2F⟩, .frameSetRange10000) ]

/-- The ten constant frames of the table (R57). -/
def constantFrames : List (Frame × Instr) := plainFrames ++ rangeFrames

/-- The general command frame `FRAME.TX`: the fixed bytes of its pattern, an opcode of R51 and the checksum of R66. -/
def decodeGeneralTx (f : Frame) : Except Reject Instr :=
  if f.f0 ≠ 0xFF then .error .badStart
  else if f.f1 ≠ 0x01 then .error .badAddress
  else if !([0x86, 0x87, 0x88, 0x79, 0x99] : List Byte).contains f.f2 then .error .unknownOpcode
  else if !Machine.valid f then .error .badChecksum
  else .ok (.frameTx f.f2 f.payload f.f8)

/-- Nine bytes of the TX stream: a constant row before the general one, the more special encoding first (log 11). -/
def decodeTx (f : Frame) : Except Reject Instr :=
  match constantFrames.find? (fun row => row.1 = f) with
  | some row => .ok row.2
  | none => decodeGeneralTx f

/-- Nine bytes of the RX stream: every frame is a response frame, "no bit of a response is fixed" (R50, R60, R61). -/
def decodeRx (f : Frame) : Instr := .frameRx f

/-- The decoder. -/
def decode : Packet → Except Reject Instr
  | .req w =>
    match decodeReq w with
    | some c => .ok (instrOfCommand c)
    | none => .error .reservedRequest
  | .tx f => decodeTx f
  | .rx f => .ok (decodeRx f)

/-- The request word of a command value (the table of R57). -/
def encodeReq : Command → BitVec 6
  | .readCo2 => 0x00
  | .zeroCal => 0x08
  | .spanCal => 0x10
  | .autoCal .disable => 0x18
  | .autoCal .enable => 0x19
  | .setRange .ppm1000 => 0x20
  | .setRange .ppm2000 => 0x21
  | .setRange .ppm3000 => 0x22
  | .setRange .ppm5000 => 0x23
  | .setRange .ppm10000 => 0x24

/-- The encoder: the words of a well-formed instruction, from the rows of spec/opcode_table.json. -/
def encode : Instr → Packet
  | .readCo2 => .req 0b000000
  | .zeroCal => .req 0b001000
  | .spanCal => .req 0b010000
  | .autoCalOff => .req 0b011000
  | .autoCalOn => .req 0b011001
  | .setRange1000 => .req 0b100000
  | .setRange2000 => .req 0b100001
  | .setRange3000 => .req 0b100010
  | .setRange5000 => .req 0b100011
  | .setRange10000 => .req 0b100100
  | .frameReadCo2 => .tx ⟨0xFF, 0x01, 0x86, 0x00, 0x00, 0x00, 0x00, 0x00, 0x79⟩
  | .frameZeroCal => .tx ⟨0xFF, 0x01, 0x87, 0x00, 0x00, 0x00, 0x00, 0x00, 0x78⟩
  | .frameSpanCal => .tx ⟨0xFF, 0x01, 0x88, 0x00, 0x00, 0x00, 0x00, 0x00, 0x77⟩
  | .frameAutoCalOff => .tx ⟨0xFF, 0x01, 0x79, 0x00, 0x00, 0x00, 0x00, 0x00, 0x86⟩
  | .frameAutoCalOn => .tx ⟨0xFF, 0x01, 0x79, 0xA0, 0x00, 0x00, 0x00, 0x00, 0xE6⟩
  | .frameSetRange1000 => .tx ⟨0xFF, 0x01, 0x99, 0x00, 0x00, 0x00, 0x03, 0xE8, 0x7B⟩
  | .frameSetRange2000 => .tx ⟨0xFF, 0x01, 0x99, 0x00, 0x00, 0x00, 0x07, 0xD0, 0x8F⟩
  | .frameSetRange3000 => .tx ⟨0xFF, 0x01, 0x99, 0x00, 0x00, 0x00, 0x0B, 0xB8, 0xA3⟩
  | .frameSetRange5000 => .tx ⟨0xFF, 0x01, 0x99, 0x00, 0x00, 0x00, 0x13, 0x88, 0xCB⟩
  | .frameSetRange10000 => .tx ⟨0xFF, 0x01, 0x99, 0x00, 0x00, 0x00, 0x27, 0x10, 0x2F⟩
  | .frameTx op p c => .tx ⟨0xFF, 0x01, op, p.p0, p.p1, p.p2, p.p3, p.p4, c⟩
  | .frameRx f => .rx f

/-- Byte `i` of the 72-bit integer `F = f[0]*2^64 + f[1]*2^56 + ... + f[8]` (R48, spec/00_scope.md section 5). -/
def frameByteOfNat (w : Nat) (i : Nat) : Byte := BitVec.ofNat 8 (w >>> (8 * (8 - i)))

/-- The frame a 72-bit integer spells (R48): the table numbers byte 0 as bits 71:64 and the checksum as bits 7:0. -/
def frameOfNat (w : Nat) : Frame :=
  ⟨frameByteOfNat w 0, frameByteOfNat w 1, frameByteOfNat w 2, frameByteOfNat w 3, frameByteOfNat w 4,
    frameByteOfNat w 5, frameByteOfNat w 6, frameByteOfNat w 7, frameByteOfNat w 8⟩

/-- Whether the decoder reads the nine bytes as a command frame. -/
def isCommandFrame (f : Frame) : Bool :=
  match decodeTx f with
  | .ok _ => true
  | .error _ => false

/-- The packet a word of the table stands for: up to 8 bits a request word (6 bits in one byte), up to 72 bits a frame. A
frame word names no direction: it is a command frame if it decodes as one, else a response (log 11). -/
def tablePacket (nbits w : Nat) : Option Packet :=
  if nbits ≤ 8 then
    if w < 2 ^ 6 then some (.req (BitVec.ofNat 6 w)) else none
  else if nbits ≤ 72 ∧ w < 2 ^ 72 then
    if isCommandFrame (frameOfNat w) then some (.tx (frameOfNat w)) else some (.rx (frameOfNat w))
  else none

/-- The instruction the decoder reads from a word numbered as spec/opcode_table.json numbers its rows. -/
def decodeTableWord (nbits w : Nat) : Option Instr :=
  match tablePacket nbits w with
  | none => none
  | some p =>
    match decode p with
    | .ok i => some i
    | .error _ => none

end Sys2Proof
end

