-- ==== Sys2Proof/Machine/State.lean ====
section
/-! DEFINITION. Machine/State.lean: the state of one block as plain data: the six elements of R10, the inputs the other
agents give it, what HOST has read, and the counter of the free values. Outcomes other than a next state have their reasons
here. -/

namespace Sys2Proof.Machine

/-- `PH`, the five values of R13. Codes 5 to 7 are never produced and have no constructor (log 13). -/
inductive Phase where
  | idle       -- no transaction has run since reset
  | sending    -- the command frame is in `BUF`; bytes `0..IDX-1` were accepted
  | awaiting   -- all 9 command bytes were accepted; bytes `0..IDX-1` of the response are in `BUF`
  | done       -- 9 response bytes received and the checksum matched
  | failed     -- the transaction ended with the error kind in `ERR`
  deriving DecidableEq, Repr

/-- `ERR`, the four values of R15 and R116. -/
inductive ErrKind where
  | none
  | write
  | read
  | checksum
  deriving DecidableEq, Repr

/-- `RES`, the values of R109. -/
inductive Result where
  | noResult               -- nothing to read
  | okValue (ppm : U16)    -- `Ok(Conc(BUF))`
  | okUnit                 -- `Ok(())`
  | writeError             -- `Err(WriteError)`
  | readError              -- `Err(ReadError)`
  | checksumError          -- `Err(ChecksumError)`
  deriving DecidableEq, Repr

/-- What HOST reads on its ports at one moment (R17, R18): `ready`, `PH` and `ERR` as port codes, `RES` and `CONC`. -/
structure PortSample where
  ready : Bool
  ph : BitVec 3
  err : BitVec 2
  res : Result
  conc : U16
  deriving DecidableEq, Repr

/-- One thing another agent does (R9, R21 (b), (c)), log 4. -/
inductive Input where
  | present (p : Packet)   -- HOST presents a request word, or a whole frame passes on a stream (logs 9 and 10)
  | txAccept               -- TRANSPORT takes the byte offered (R30)
  | txError                -- TRANSPORT fails the write (R30)
  | rxData (v : Byte)      -- TRANSPORT delivers `v` (R31)
  | rxError                -- TRANSPORT fails the read (R31)
  | quiet                  -- nothing happens yet: no agent acts in this turn (R9 (c), R30, R31)
  | sample                 -- HOST reads its ports (R9 (a), R17, R18)
  | reset                  -- reset is applied (R135, R136)
  deriving DecidableEq, Repr

/-- Why the machine stops. The three errors of the block (R115) are none of these: they are next states. -/
inductive Fault where
  /-- Raised by the step when the block is in `Sending` or `Awaiting` and no agent acts any more: the hang of R33, R106 and
  U7 of spec/93_implementation_defined.md ("stuck: the block is held"). Safe: the model stops where the block waits. -/
  | held
  deriving DecidableEq, Repr

/-- Why the model gives no next state. -/
inductive Refusal where
  /-- Raised by an arm of `exec` whose instruction has no meaning yet. Safe. -/
  | notModelled (mnemonic : String)
  /-- Raised by a transport answer to an access that is not pending: "no such event: the block has no read pending" (last
  row of the table in spec/95_test_vectors.md section 2.7), "where no row applies, the block has no step" (R97). Safe. -/
  | noSuchEvent
  /-- Raised by a command frame on the TX stream that the block is not offering: the transport sees "no other byte from this
  block" (R43 (a)), "where no row applies, the block has no step" (R97). Safe. -/
  | frameNotOffered
  /-- Raised by nine bytes on the TX stream that are no command frame: the block never sends such bytes (R5, R49, R59). Safe. -/
  | notACommandFrame
  deriving DecidableEq, Repr

/-- The state. The first seven fields are the six elements of R10 (`TXLOG` and `RXLOG` are one row there); `inputs`,
`hostSeen` and `draws` are the model's own (logs 4, 16 and 3). -/
structure State where
  buf : Frame                   -- `BUF[0..8]` (R11)
  ph : Phase                    -- `PH` (R13)
  idx : Fin 9                   -- `IDX` (R14), log 13
  err : ErrKind                 -- `ERR` (R15)
  cmdl : Command                -- `CMDL` (R16)
  txlog : List Byte             -- `TXLOG` (R21, R27), oldest first
  rxlog : List Byte             -- `RXLOG` (R21, R28), oldest first
  inputs : List Input           -- what the other agents do next, oldest first
  hostSeen : List PortSample    -- what HOST has read, oldest first
  draws : Nat                   -- how many open reads of `CONC` have been made
  deriving DecidableEq, Repr

/-- The machine right after reset (R23, R135). `BUF` and `CMDL` are unspecified there; the model names zero bytes and
`READ_CO2` (DESIGN CHOICE, logs 1 and 2). No input waits: a program is presented from outside (log 4). -/
def State.reset : State where
  buf := Frame.fill 0
  ph := .idle
  idx := 0
  err := .none
  cmdl := .readCo2
  txlog := []
  rxlog := []
  inputs := []
  hostSeen := []
  draws := 0

/-- The outcome of a step or of an instruction. -/
abbrev Out := Host.Outcome State Fault Refusal

end Sys2Proof.Machine
end

