-- ==== Sys2Proof/Machine/Flags.lean ====
section
/-! DEFINITION. Machine/Flags.lean: the flags `PH` and `ERR` as port codes (R13, R15, R116), the status outputs of R17, the
result `RES` (R109) and the port `CONC` (R18). -/

namespace Sys2Proof.Machine

/-- The 3-bit code of `PH` (R13; the codes are the spec's decision D14). -/
def phaseCode : Phase → BitVec 3
  | .idle => 0
  | .sending => 1
  | .awaiting => 2
  | .done => 3
  | .failed => 4

/-- The 2-bit code of `ERR` (R15, R116; the codes are the spec's decision D14). -/
def errCode : ErrKind → BitVec 2
  | .none => 0
  | .write => 1
  | .read => 2
  | .checksum => 3

/-- Whether a phase lets HOST present a request (R17, R98). -/
def phaseReady : Phase → Bool
  | .idle => true
  | .sending => false
  | .awaiting => false
  | .done => true
  | .failed => true

/-- `ready = (PH != Sending and PH != Awaiting)` (R17). -/
def State.ready (s : State) : Bool := phaseReady s.ph

/-- `RES` (R109). `Failed` with `ERR = None` is on no line of R109 and is never reached (R24 (e)); it gives no result (log 14). -/
def State.result (s : State) : Result :=
  match s.ph with
  | .idle => .noResult
  | .sending => .noResult
  | .awaiting => .noResult
  | .done => if s.cmdl = .readCo2 then .okValue (conc s.buf) else .okUnit
  | .failed =>
    match s.err with
    | .none => .noResult
    | .write => .writeError
    | .read => .readError
    | .checksum => .checksumError

/-- Whether `CONC` is defined: "only when `PH = Done` and `CMDL` is `READ_CO2`" (R18). -/
def State.concDefined (s : State) : Bool := s.ph = .done && s.cmdl = .readCo2

/-- The value a read of `CONC` returns (R18): the concentration where it is defined, elsewhere a draw (log 3). -/
def State.concPort (s : State) : U16 :=
  if s.concDefined then conc s.buf else Config.freeConc s.draws

/-- Everything HOST reads at once. -/
def State.ports (s : State) : PortSample where
  ready := s.ready
  ph := phaseCode s.ph
  err := errCode s.err
  res := s.result
  conc := s.concPort

end Sys2Proof.Machine
end

