-- ==== Sys2Proof/Machine/Ops.lean ====
section
/-! DEFINITION. Machine/Ops.lean: the operations every meaning and every input is made of: taking an error and leaving it,
the eight transitions of spec/43_sequencer.md, the two whole-frame operations over them, HOST's read of its ports, reset and
waiting. -/

namespace Sys2Proof.Machine

/-- Go on with `k` from a next state; a fault or a refusal ends the sequence. -/
def andThen (o : Out) (k : State → Out) : Out :=
  match o with
  | .next s => k s
  | .fault r => .fault r
  | .refused r => .refused r

/-- Taking an error (R125; `raise` in spec/00_scope.md section 5): "`PH <- Failed` and `ERR <- kind`", nothing else is
saved or changed. -/
def raiseError (k : ErrKind) (s : State) : State := { s with err := k, ph := .failed }

/-- What acceptance writes, all at once (R98): `CMDL`, all of `BUF`, `IDX`, `ERR` and `PH`. There is no return from an
error but this (R127): it clears `ERR` and leaves `Failed`. -/
def startTransaction (c : Command) (s : State) : State :=
  { s with cmdl := c, buf := buildFrame c, idx := 0, err := .none, ph := .sending }

/-- ACCEPT (R98) when `ready` is 1. While busy the request is not accepted and not queued, and no state changes (R107, log 5). -/
def accept (c : Command) (s : State) : Out :=
  if s.ready then .next (startTransaction c s) else .next s

/-- TRANSPORT took the byte `BUF[IDX]`: TX_NEXT (R99) and TX_LAST (R100). -/
def txAccept (s : State) : Out :=
  match s.ph with
  | .sending =>
    if s.idx = 8 then
      .next { s with txlog := s.txlog ++ [s.buf.get s.idx], idx := 0, ph := .awaiting }
    else
      .next { s with txlog := s.txlog ++ [s.buf.get s.idx], idx := s.idx + 1 }
  | .idle => .refused .noSuchEvent
  | .awaiting => .refused .noSuchEvent
  | .done => .refused .noSuchEvent
  | .failed => .refused .noSuchEvent

/-- The write failed: TX_FAIL (R101), which is `raise WriteError` (R118). -/
def txError (s : State) : Out :=
  match s.ph with
  | .sending => .next (raiseError .write s)
  | .idle => .refused .noSuchEvent
  | .awaiting => .refused .noSuchEvent
  | .done => .refused .noSuchEvent
  | .failed => .refused .noSuchEvent

/-- The store of a received byte: `BUF[IDX] <- v; RXLOG <- RXLOG ++ [v]` (R102 to R104). -/
def storeByte (v : Byte) (s : State) : State :=
  { s with buf := s.buf.set s.idx v, rxlog := s.rxlog ++ [v] }

/-- The end of the reply: all nine bytes are in `BUF` and the validation decides between RX_LAST_OK (R103) and RX_LAST_BAD
(R104), which is `raise ChecksumError` (R120). -/
def finishReply (s : State) : State :=
  match decodeValidate s.buf with
  | .ok _ => { s with ph := .done }
  | .error _ => raiseError .checksum s

/-- TRANSPORT delivered `v`: RX_NEXT (R102), or with `IDX = 8` the store and the validation as one step (R103, R104). -/
def rxData (v : Byte) (s : State) : Out :=
  match s.ph with
  | .awaiting =>
    if s.idx = 8 then
      .next (finishReply (storeByte v s))
    else
      .next { storeByte v s with idx := s.idx + 1 }
  | .idle => .refused .noSuchEvent
  | .sending => .refused .noSuchEvent
  | .done => .refused .noSuchEvent
  | .failed => .refused .noSuchEvent

/-- The read failed: RX_FAIL (R105), which is `raise ReadError` (R119). -/
def rxError (s : State) : Out :=
  match s.ph with
  | .awaiting => .next (raiseError .read s)
  | .idle => .refused .noSuchEvent
  | .sending => .refused .noSuchEvent
  | .done => .refused .noSuchEvent
  | .failed => .refused .noSuchEvent

/-- At most `n` bytes the block offers are taken, one after another, as long as it is sending. -/
def sendRest : Nat → State → Out
  | 0, s => .next s
  | n + 1, s =>
    match s.ph with
    | .sending => andThen (txAccept s) (sendRest n)
    | .idle => .next s
    | .awaiting => .next s
    | .done => .next s
    | .failed => .next s

/-- The command frame `f` goes out whole: TRANSPORT takes every byte of it that the block still has to offer (R43, R99, R100).
The block offers `f` exactly when it is `Sending` with `f` in `BUF` (R13); otherwise no such thing happens (R97, log 9). -/
def sendFrame (f : Frame) (s : State) : Out :=
  if s.ph = .sending ∧ s.buf = f then sendRest Config.frameLen s else .refused .frameNotOffered

/-- The bytes are at the far end of the RX stream: each pending read takes the next one, until none is left or the block
asks for no more (R31, R102 to R104). -/
def deliver : List Byte → State → Out
  | [], s => .next s
  | v :: vs, s =>
    match s.ph with
    | .awaiting => andThen (rxData v s) (deliver vs)
    | .idle => .next s
    | .sending => .next s
    | .done => .next s
    | .failed => .next s

/-- A response frame arrives at the transport: the block takes as many of its bytes as it has reads for, and the rest stay
with TRANSPORT (R39, R142). A block that is not `Awaiting` asks for none and is unchanged (R32, log 10). -/
def receiveFrame (f : Frame) (s : State) : Out := deliver f.bytes s

/-- HOST reads its ports (R17, R18): nothing of the block changes; a read of `CONC` where it is not defined uses up a draw. -/
def samplePorts (s : State) : State :=
  { s with hostSeen := s.hostSeen ++ [s.ports], draws := if s.concDefined then s.draws else s.draws + 1 }

/-- Reset, in any state (R135, R136): the state of R23 at once; a pending access is dropped. What the other agents will do,
what HOST has read and the counter of draws are not of the block and stay (log 15). -/
def resetBlock (s : State) : State :=
  { State.reset with inputs := s.inputs, hostSeen := s.hostSeen, draws := s.draws }

/-- No agent acts any more: at rest the block waits for a request (R114); in `Sending` or `Awaiting` it is held, a hang
(R33, R106, log 7). -/
def noInput (s : State) : Out :=
  if s.ready then .next s else .fault .held

end Sys2Proof.Machine
end

