-- ==== Sys2Proof/Machine/Frames.lean ====
section
/-! DEFINITION. Machine/Frames.lean: the meanings of the twelve frame rows of spec/opcode_table.json. A command frame
("block to sensor") is the sending of that frame (R43, R99, R100, log 9); a response frame ("sensor to block") is its
reception and validation (R102 to R104, log 10). -/

namespace Sys2Proof.Machine

/-- `FRAME.READ_CO2` (R85): the frame of `READ_CO2` goes out. -/
def execFrameReadCo2 (s : State) : Out := sendFrame (buildFrame .readCo2) s

/-- `FRAME.ZERO_CAL` (R86). -/
def execFrameZeroCal (s : State) : Out := sendFrame (buildFrame .zeroCal) s

/-- `FRAME.SPAN_CAL` (R87). -/
def execFrameSpanCal (s : State) : Out := sendFrame (buildFrame .spanCal) s

/-- `FRAME.AUTO_CAL.OFF` (R89). -/
def execFrameAutoCalOff (s : State) : Out := sendFrame (buildFrame (.autoCal .disable)) s

/-- `FRAME.AUTO_CAL.ON` (R88). -/
def execFrameAutoCalOn (s : State) : Out := sendFrame (buildFrame (.autoCal .enable)) s

/-- `FRAME.SET_RANGE.1000` (R90). -/
def execFrameSetRange1000 (s : State) : Out := sendFrame (buildFrame (.setRange .ppm1000)) s

/-- `FRAME.SET_RANGE.2000` (R91). -/
def execFrameSetRange2000 (s : State) : Out := sendFrame (buildFrame (.setRange .ppm2000)) s

/-- `FRAME.SET_RANGE.3000` (R92). -/
def execFrameSetRange3000 (s : State) : Out := sendFrame (buildFrame (.setRange .ppm3000)) s

/-- `FRAME.SET_RANGE.5000` (R93). -/
def execFrameSetRange5000 (s : State) : Out := sendFrame (buildFrame (.setRange .ppm5000)) s

/-- `FRAME.SET_RANGE.10000` (R94). -/
def execFrameSetRange10000 (s : State) : Out := sendFrame (buildFrame (.setRange .ppm10000)) s

/-- `FRAME.TX` (R73, R49): the general command frame with its operand fields goes out. -/
def execFrameTx (op : Byte) (p : Payload) (c : Byte) (s : State) : Out := sendFrame (rawFrame op p c) s

/-- `FRAME.RX` (R76): the nine bytes arrive as a response. -/
def execFrameRx (f : Frame) (s : State) : Out := receiveFrame f s

end Sys2Proof.Machine
end

