-- ==== Sys2Proof/Machine/Requests.lean ====
section
/-! DEFINITION. Machine/Requests.lean: the meanings of the ten request words (`REQ` rows of spec/opcode_table.json). A
request starts the transaction of its operation (R110 to R113) by the ACCEPT step (R98) of its own command value; the
transaction goes on by the transport's answers. -/

namespace Sys2Proof.Machine

/-- `READ_CO2` (R85, R110). -/
def execReadCo2 (s : State) : Out := accept .readCo2 s

/-- `ZERO_CAL` (R86, R113; the spec's decision D3). -/
def execZeroCal (s : State) : Out := accept .zeroCal s

/-- `SPAN_CAL` (R87, R113; the spec's decisions D3 and D8). -/
def execSpanCal (s : State) : Out := accept .spanCal s

/-- `AUTO_CAL.OFF` (R89, R111). -/
def execAutoCalOff (s : State) : Out := accept (.autoCal .disable) s

/-- `AUTO_CAL.ON` (R88, R111). -/
def execAutoCalOn (s : State) : Out := accept (.autoCal .enable) s

/-- `SET_RANGE.1000` (R90, R112). -/
def execSetRange1000 (s : State) : Out := accept (.setRange .ppm1000) s

/-- `SET_RANGE.2000` (R91, R112). -/
def execSetRange2000 (s : State) : Out := accept (.setRange .ppm2000) s

/-- `SET_RANGE.3000` (R92, R112). -/
def execSetRange3000 (s : State) : Out := accept (.setRange .ppm3000) s

/-- `SET_RANGE.5000` (R93, R112). -/
def execSetRange5000 (s : State) : Out := accept (.setRange .ppm5000) s

/-- `SET_RANGE.10000` (R94, R112). -/
def execSetRange10000 (s : State) : Out := accept (.setRange .ppm10000) s

end Sys2Proof.Machine
end

