-- ==== Sys2Proof/Machine/Dispatch.lean ====
section
/-! DEFINITION. Machine/Dispatch.lean: one arm per instruction, each one direct call of that instruction's own meaning. -/

namespace Sys2Proof.Machine

def exec (i : Instr) (s : State) : Host.Outcome State Fault Refusal :=
  match i with
  | .readCo2 => Sys2Proof.Machine.execReadCo2 s
  | .zeroCal => Sys2Proof.Machine.execZeroCal s
  | .spanCal => Sys2Proof.Machine.execSpanCal s
  | .autoCalOff => Sys2Proof.Machine.execAutoCalOff s
  | .autoCalOn => Sys2Proof.Machine.execAutoCalOn s
  | .setRange1000 => Sys2Proof.Machine.execSetRange1000 s
  | .setRange2000 => Sys2Proof.Machine.execSetRange2000 s
  | .setRange3000 => Sys2Proof.Machine.execSetRange3000 s
  | .setRange5000 => Sys2Proof.Machine.execSetRange5000 s
  | .setRange10000 => Sys2Proof.Machine.execSetRange10000 s
  | .frameReadCo2 => Sys2Proof.Machine.execFrameReadCo2 s
  | .frameZeroCal => Sys2Proof.Machine.execFrameZeroCal s
  | .frameSpanCal => Sys2Proof.Machine.execFrameSpanCal s
  | .frameAutoCalOff => Sys2Proof.Machine.execFrameAutoCalOff s
  | .frameAutoCalOn => Sys2Proof.Machine.execFrameAutoCalOn s
  | .frameSetRange1000 => Sys2Proof.Machine.execFrameSetRange1000 s
  | .frameSetRange2000 => Sys2Proof.Machine.execFrameSetRange2000 s
  | .frameSetRange3000 => Sys2Proof.Machine.execFrameSetRange3000 s
  | .frameSetRange5000 => Sys2Proof.Machine.execFrameSetRange5000 s
  | .frameSetRange10000 => Sys2Proof.Machine.execFrameSetRange10000 s
  | .frameTx op p ck => Sys2Proof.Machine.execFrameTx op p ck s
  | .frameRx f => Sys2Proof.Machine.execFrameRx f s

end Sys2Proof.Machine
end

