-- ==== Sys2Proof/Machine/React.lean ====
section
/-! DEFINITION. Machine/React.lean: what the machine does with one input, and how a word of the opcode table is put where the
next step takes its instruction from. Machine/Step.lean only calls these. -/

namespace Sys2Proof.Machine

/-- A packet that is no instruction: a reserved request word is not accepted and changes no state (R108, R58, log 6); bytes on
the TX stream that are no command frame are never sent (R49, R59, log 9). The decoder refuses no response (R60). -/
def rejected (r : Reject) (s : State) : Out :=
  match r with
  | .reservedRequest => .next s
  | .badStart => .refused .notACommandFrame
  | .badAddress => .refused .notACommandFrame
  | .unknownOpcode => .refused .notACommandFrame
  | .badChecksum => .refused .notACommandFrame

/-- An instruction word is there: decode it and run the instruction. -/
def runPacket (p : Packet) (s : State) : Out :=
  match decode p with
  | .ok i => exec i s
  | .error r => rejected r s

/-- What the machine does with one input, already taken from the list. -/
def react (i : Input) (s : State) : Out :=
  match i with
  | .present p => runPacket p s
  | .txAccept => txAccept s
  | .txError => txError s
  | .rxData v => rxData v s
  | .rxError => rxError s
  | .quiet => .next s
  | .sample => .next (samplePorts s)
  | .reset => .next (resetBlock s)

/-- The state in which the packet can run as the next instruction, with the packet as the next input. A request word needs
nothing more. A command frame is sent by a block that is `Sending` it, a response is received by a block that is `Awaiting`
it, each from byte 0 (log 12). -/
def placePacket (p : Packet) (s : State) : State :=
  match p with
  | .req _ => { s with inputs := .present p :: s.inputs }
  | .tx f =>
    { s with
      inputs := .present p :: s.inputs
      buf := f
      cmdl := (commandOfFrame f).getD s.cmdl
      ph := .sending
      idx := 0
      err := .none }
  | .rx _ =>
    { s with
      inputs := .present p :: s.inputs
      ph := .awaiting
      idx := 0
      err := .none }

/-- A word of the opcode table placed as the next instruction; a number that is no word of the table places nothing. -/
def placeWord (nbits w : Nat) (s : State) : State :=
  match tablePacket nbits w with
  | some p => placePacket p s
  | none => s

end Sys2Proof.Machine
end

