-- ==== Sys2Proof/Machine/Step.lean ====
section
/-! DEFINITION. Machine/Step.lean: one step of the machine: the next input is taken and the machine reacts to it. -/

namespace Sys2Proof.Machine

/-- One step (R9, R41: one input, one indivisible change). -/
def step (s : State) : Host.Outcome State Fault Refusal :=
  match s.inputs with
  | [] => noInput s
  | i :: rest => react i { s with inputs := rest }

/-- The state whose next step runs the instruction of the given word, numbered as spec/opcode_table.json numbers it. -/
def State.withFetchWord (s : State) (nbits w : Nat) : State := placeWord nbits w s

end Sys2Proof.Machine
end

