-- ==== Sys2Proof/Machine/Transaction.lean ====
section
/-! DEFINITION. Machine/Transaction.lean: the spec's end-to-end function `Run(c, A, B)` (spec/43_sequencer.md section 5,
R110 to R113), written from its pseudocode and not from the machine, and the inputs that carry a transaction. Claims compare
the two. -/

namespace Sys2Proof.Machine

/-- The answer to one write (R30). -/
inductive TxAnswer where
  | accept
  | error
  deriving DecidableEq, Repr

/-- The answer to one read (R31). -/
inductive RxAnswer where
  | data (v : Byte)
  | error
  deriving DecidableEq, Repr

/-- The answers to the writes as inputs. -/
def TxAnswer.input : TxAnswer → Input
  | .accept => .txAccept
  | .error => .txError

/-- The answers to the reads as inputs. -/
def RxAnswer.input : RxAnswer → Input
  | .data v => .rxData v
  | .error => .rxError

/-- The answers up to and with the first error: no access happens after a failing one (R43 (c)). -/
def upToError {α : Type} (isError : α → Bool) : List α → List α
  | [] => []
  | a :: as => if isError a then [a] else a :: upToError isError as

/-- The transport's inputs in a transaction whose writes are answered by `A` and reads by `B`: after a failed write nothing is
read (R118). -/
def transportScript (A : List TxAnswer) (B : List RxAnswer) : List Input :=
  (upToError (· = .error) A).map TxAnswer.input ++
    (if TxAnswer.error ∈ A then [] else (upToError (· = .error) B).map RxAnswer.input)

/-- All the inputs of a transaction: HOST presents the request word, then the transport answers. -/
def transactionScript (c : Command) (A : List TxAnswer) (B : List RxAnswer) : List Input :=
  .present (.req (encodeReq c)) :: transportScript A B

/-- The bytes that answered reads deliver, or `none` if one of them failed. -/
def replyBytes : List RxAnswer → Option (List Byte)
  | [] => some []
  | .data v :: rest => (replyBytes rest).map (v :: ·)
  | .error :: _ => none

/-- The frame made of nine bytes, `R[0..8]`. -/
def frameOfBytes : List Byte → Option Frame
  | [b0, b1, b2, b3, b4, b5, b6, b7, b8] => some ⟨b0, b1, b2, b3, b4, b5, b6, b7, b8⟩
  | _ => none

/-- The result of a transaction whose reply frame is `R` (R110 to R113). -/
def replyResult (c : Command) (R : Frame) : Result :=
  if ck R ≠ R.f8 then .checksumError
  else
    match c with
    | .readCo2 => .okValue (conc R)
    | .zeroCal => .okUnit
    | .spanCal => .okUnit
    | .autoCal _ => .okUnit
    | .setRange _ => .okUnit

/-- `Run(c, A, B)` (spec/43_sequencer.md section 5): the result of the whole transaction of `c` as a function of the answers
to the nine writes and to the nine reads. -/
def runTransaction (c : Command) (A : List TxAnswer) (B : List RxAnswer) : Result :=
  if TxAnswer.error ∈ A then .writeError
  else
    match (replyBytes B).bind frameOfBytes with
    | none => .readError
    | some R => replyResult c R

/-- The bytes of `BUF` that the transport accepts when it answers the writes by `A`: those before the first error. -/
def sentBytes : List TxAnswer → List Byte → List Byte
  | .accept :: as, b :: bs => b :: sentBytes as bs
  | _, _ => []

/-- The bytes the transport delivers when it answers the reads by `B`: those before the first error. -/
def deliveredBytes : List RxAnswer → List Byte
  | .data v :: rest => v :: deliveredBytes rest
  | _ => []

end Sys2Proof.Machine
end

