-- ==== Sys2Proof/Safety.lean ====
section
/-! DEFINITION. Safety.lean: the terms in which claims speak of good states and runs: at rest, busy, the invariants of R24
and of the two logs, and the states that differ only in what no one can observe. -/

namespace Sys2Proof.Safety

open Sys2Proof.Machine

/-- `k` steps of the machine, stopping at the first fault or refusal: the host's run, on the model's own state. -/
def runSteps (k : Nat) (s : State) : Out := Host.Core.run Sys2Proof.core k s

/-- At rest (R114): "the only states a model may call final". -/
def AtRest (s : State) : Prop := s.ph = .idle ∨ s.ph = .done ∨ s.ph = .failed

/-- A transaction runs: `PH` is `Sending` or `Awaiting` and one access is pending (R106). -/
def Busy (s : State) : Prop := s.ph = .sending ∨ s.ph = .awaiting

/-- The six elements of R10 are the same in both states: nothing happened to the block. -/
def SameBlock (s t : State) : Prop :=
  t.buf = s.buf ∧ t.ph = s.ph ∧ t.idx = s.idx ∧ t.err = s.err ∧ t.cmdl = s.cmdl ∧ t.txlog = s.txlog ∧ t.rxlog = s.rxlog

/-- What TRANSPORT does (R9 (c)): the four answers, and frames passing whole on either stream. -/
def IsTransport : Input → Prop
  | .present (.req _) => False
  | .present (.tx _) => True
  | .present (.rx _) => True
  | .txAccept => True
  | .txError => True
  | .rxData _ => True
  | .rxError => True
  | .quiet => False
  | .sample => False
  | .reset => False

/-- What TRANSPORT does on the RX stream: the answer that delivers a byte, and a response frame that arrives. -/
def IsDelivery : Input → Prop
  | .present (.req _) => False
  | .present (.tx _) => False
  | .present (.rx _) => True
  | .txAccept => False
  | .txError => False
  | .rxData _ => True
  | .rxError => False
  | .quiet => False
  | .sample => False
  | .reset => False

/-- The next input is the request word of `c`, and the block is ready: ACCEPT of `c` is the next step (R98). -/
def AcceptsNext (c : Command) (s : State) : Prop :=
  s.ready = true ∧ s.inputs.head? = some (.present (.req (encodeReq c)))

/-- The state invariant: R24 (c) to (h), and what R14 says `IDX` holds in `Done` and after a checksum failure. (a) and (b) of
R24 hold by the types of `ph` and `idx`. -/
structure Inv (s : State) : Prop where
  idle_clear : s.ph = .idle → s.idx = 0 ∧ s.err = .none
  running_clear : s.ph = .sending ∨ s.ph = .awaiting ∨ s.ph = .done → s.err = .none
  failed_iff : s.ph = .failed ↔ s.err ≠ .none
  sending_frame : s.ph = .sending → s.buf = buildFrame s.cmdl
  done_valid : s.ph = .done → valid s.buf = true ∧ s.idx = 8
  checksum_invalid : s.ph = .failed → s.err = .checksum → valid s.buf = false ∧ s.idx = 8

/-- The command frame of the transaction went out whole and is the end of `TXLOG`. -/
def CommandSent (s : State) : Prop := (buildFrame s.cmdl).bytes <:+ s.txlog

/-- The first `IDX` bytes of the command frame went out and are the end of `TXLOG`. -/
def CommandPartlySent (s : State) : Prop := (buildFrame s.cmdl).bytes.take s.idx <:+ s.txlog

/-- The log invariant: what `TXLOG` and `RXLOG` end with in each phase (R13, R100, R118 to R120). -/
structure LogInv (s : State) : Prop where
  sending : s.ph = .sending → CommandPartlySent s
  awaiting : s.ph = .awaiting → CommandSent s ∧ s.buf.bytes.take s.idx <:+ s.rxlog
  done : s.ph = .done → CommandSent s ∧ s.buf.bytes <:+ s.rxlog
  write_failed : s.ph = .failed → s.err = .write → CommandPartlySent s
  read_failed : s.ph = .failed → s.err = .read → CommandSent s ∧ s.buf.bytes.take s.idx <:+ s.rxlog
  checksum_failed : s.ph = .failed → s.err = .checksum → CommandSent s ∧ s.buf.bytes <:+ s.rxlog

/-- The two states are the same but for what reset leaves unspecified: `BUF` and `CMDL` may differ while no transaction has
run since reset, and HOST sees the same on every port (R22 (a), R23). -/
def SameButUnspecified (s t : State) : Prop :=
  t = { s with buf := t.buf, cmdl := t.cmdl } ∧ (s.ph = .idle ∨ t = s) ∧ t.ports = s.ports

/-- Two outcomes are the same but for what reset leaves unspecified. -/
def OutcomesAgree : Out → Out → Prop
  | .next s, .next t => SameButUnspecified s t
  | .fault r, .fault r' => r = r'
  | .refused r, .refused r' => r = r'
  | _, _ => False

end Sys2Proof.Safety
end

