-- ==== Sys2Proof/Certificates/Slice0/Obligations.lean ====
section
/-! DEFINITION. Certificates/Slice0/Obligations.lean: the statements for the provers. `OBLIGATIONS.json` says of each what it
rests on. -/

open Sys2Proof Sys2Proof.Machine Sys2Proof.Safety

/-! ## Reset -/

/-- R23, R135: the values of reset (the spec's decision D15). `BUF` and `CMDL` are not stated: their values are the model's
choice (logs 1 and 2). -/
def Obligations.ResetStateIsIdleAndEmpty : Prop :=
  State.reset.ph = .idle ∧ State.reset.idx = 0 ∧ State.reset.err = .none ∧ State.reset.txlog = [] ∧
    State.reset.rxlog = [] ∧ State.reset.ready = true ∧ State.reset.result = .noResult

/-- R135, R136: reset in any state, a running transaction among them (the spec's decision D15). That the inputs, HOST's record
and the draw counter stay is the model's choice (log 15). -/
def Obligations.ResetWorksInEveryState : Prop :=
  ∀ (s : State) (rest : List Input), s.inputs = .reset :: rest →
    ∃ t, step s = .next t ∧ t.ph = .idle ∧ t.idx = 0 ∧ t.err = .none ∧ t.txlog = [] ∧ t.rxlog = [] ∧
      t.ready = true ∧ t.result = .noResult ∧ t.inputs = rest ∧ t.hostSeen = s.hostSeen ∧ t.draws = s.draws

/-! ## From words to steps -/

/-- A word that stands where the next instruction is taken from, and decodes, runs as that instruction; and `withFetchWord`
puts a word of the opcode table there. The agents are R9's and the words those of R48 and R56; that the agents' acts are a list
of inputs of which a step takes the first (log 4), how a bare table word is read (log 11) and what `withFetchWord` sets (log 12)
are the model's choices (DESIGN CHOICE). -/
def Obligations.StepRunsTheDecodedInstruction : Prop :=
  (∀ (s : State) (p : Packet) (rest : List Input) (i : Instr), s.inputs = .present p :: rest → decode p = .ok i →
    step s = exec i { s with inputs := rest }) ∧
  (∀ (s : State) (nbits w : Nat) (i : Instr), decodeTableWord nbits w = some i →
    step (s.withFetchWord nbits w) = exec i { s.withFetchWord nbits w with inputs := s.inputs })

/-- Words written out from the rows of spec/opcode_table.json decode to their rows (decision D4 for the request words, log 11
for the direction of a frame). -/
def Obligations.SampleWordsDecodeToTheirRows : Prop :=
  decode (.req 0b000000) = .ok .readCo2 ∧
  decode (.req 0b011001) = .ok .autoCalOn ∧
  decode (.req 0b100100) = .ok .setRange10000 ∧
  decode (.req 0b100101) = .error .reservedRequest ∧
  decodeTableWord 72 0xFF0179A000000000E6 = some .frameAutoCalOn ∧
  decodeTableWord 72 0xFF01990000000BB8A3 = some .frameSetRange3000 ∧
  decode (.tx ⟨0xFF, 0x01, 0x88, 0x00, 0x00, 0x00, 0x07, 0xD0, 0xA0⟩) =
    .ok (.frameTx 0x88 ⟨0x00, 0x00, 0x00, 0x07, 0xD0⟩ 0xA0) ∧
  decode (.rx ⟨0xFF, 0x01, 0x04, 0xB0, 0x00, 0x00, 0x00, 0x00, 0x4B⟩) =
    .ok (.frameRx ⟨0xFF, 0x01, 0x04, 0xB0, 0x00, 0x00, 0x00, 0x00, 0x4B⟩)

/-- R56: exactly the ten request words decode, each to its own command; the other 54 are reserved (the codes are the spec's
decision D4). -/
def Obligations.ExactlyTenRequestWordsDecode : Prop :=
  ∀ (w : BitVec 6) (c : Command), decodeReq w = some c ↔ w = encodeReq c

/-- Decoding the words of a well-formed instruction gives it back, every operand at every value. -/
def Obligations.DecodeOfEncodeIsTheInstruction : Prop :=
  ∀ i : Instr, wellFormed i = true → decode (encode i) = .ok i

/-- Every packet has at most one reading: what decodes is well-formed and encodes back to the same packet. -/
def Obligations.EncodeOfDecodeIsThePacket : Prop :=
  ∀ (p : Packet) (i : Instr), decode p = .ok i → encode i = p ∧ wellFormed i = true

/-! ## The checksum unit -/

/-- R65, R66: the sum and the checksum over the integers. -/
def Obligations.ChecksumIsTheIntegerFormula : Prop :=
  ∀ f : Frame,
    (sum8 f).toNat = (f.f0.toNat + f.f1.toNat + f.f2.toNat + f.f3.toNat + f.f4.toNat + f.f5.toNat + f.f6.toNat +
      f.f7.toNat) % 256 ∧
    (ck f).toNat = 255 - (f.f0.toNat + f.f1.toNat + f.f2.toNat + f.f3.toNat + f.f4.toNat + f.f5.toNat + f.f6.toNat +
      f.f7.toNat) % 256

/-- R68, R69 (a): a frame is valid exactly when its nine bytes sum to 255 mod 256 (spec/90_conflicts.md C1; an inference the
spec marks as derived from R66). -/
def Obligations.ValidMeansNineBytesSumTo255 : Prop :=
  ∀ f : Frame, valid f = true ↔ (f.bytes.map BitVec.toNat).sum % 256 = 255

/-- R81: one flipped bit of a valid frame is always found; two flipped bits may not be. -/
def Obligations.EverySingleBitFlipIsDetected : Prop :=
  (∀ (f : Frame) (i : Fin 9) (k : Nat), valid f = true → k < 8 →
    decodeValidate (f.set i (f.get i ^^^ BitVec.twoPow 8 k)) = .error .checksumError) ∧
  ∃ (f : Frame) (i j : Fin 9) (k l : Nat), i ≠ j ∧ k < 8 ∧ l < 8 ∧ valid f = true ∧
    valid ((f.set i (f.get i ^^^ BitVec.twoPow 8 k)).set j (f.get j ^^^ BitVec.twoPow 8 l)) = true

/-- R69 (c), R148: no reordering of the nine bytes is detected; every rotation of a valid frame is valid. -/
def Obligations.ReorderedBytesAreNotDetected : Prop :=
  ∀ f g : Frame, g.bytes.Perm f.bytes → valid g = valid f

/-! ## The codec and the multiplexer -/

/-- R73: the frame `Encode` builds, byte by byte, with the checksum of the first eight bytes over the integers last. -/
def Obligations.EncodeIsHeaderPayloadChecksum : Prop :=
  ∀ (op : Byte) (p : Payload),
    (encodeFrame op p).summed = [0xFF, 0x01, op, p.p0, p.p1, p.p2, p.p3, p.p4] ∧
    (encodeFrame op p).f8.toNat =
      255 - (0xFF + 0x01 + op.toNat + p.p0.toNat + p.p1.toNat + p.p2.toNat + p.p3.toNat + p.p4.toNat) % 256

/-- R76, R77: `DecodeValidate` returns the raw nine bytes if the ninth is the checksum of the first eight, and fails otherwise;
nothing else is compared, so exactly one ninth byte is accepted after any first eight. -/
def Obligations.DecodeValidateChecksOnlyTheSum : Prop :=
  (∀ f : Frame, decodeValidate f =
    if f.f8.toNat = 255 - (f.summed.map BitVec.toNat).sum % 256 then .ok f else .error .checksumError) ∧
  (∀ f : Frame, ∃ c : Byte, decodeValidate (f.set 8 c) = .ok (f.set 8 c) ∧
    ∀ d : Byte, d ≠ c → decodeValidate (f.set 8 d) = .error .checksumError)

/-- R78: what `Encode` builds, `DecodeValidate` accepts and returns unchanged. -/
def Obligations.DecodeValidateOfEncodeSucceeds : Prop :=
  ∀ (op : Byte) (p : Payload), decodeValidate (encodeFrame op p) = .ok (encodeFrame op p)

/-- R79, R64, R34: the concentration is bytes 2 and 3, big-endian (the position is the spec's decision D10). -/
def Obligations.ConcentrationIsBytesTwoAndThree : Prop :=
  ∀ f : Frame, (conc f).toNat = f.f2.toNat * 256 + f.f3.toNat

/-- R85, R86, R88, R89, R91: opcode and payload, request word and frame of the commands the source itself spells. -/
def Obligations.SourceCommandsHaveTheirFrames : Prop :=
  (mux .readCo2 = (0x86, ⟨0, 0, 0, 0, 0⟩) ∧ encodeReq .readCo2 = 0x00 ∧
    buildFrame .readCo2 = ⟨0xFF, 0x01, 0x86, 0x00, 0x00, 0x00, 0x00, 0x00, 0x79⟩) ∧
  (mux .zeroCal = (0x87, ⟨0, 0, 0, 0, 0⟩) ∧ encodeReq .zeroCal = 0x08 ∧
    buildFrame .zeroCal = ⟨0xFF, 0x01, 0x87, 0x00, 0x00, 0x00, 0x00, 0x00, 0x78⟩) ∧
  (mux (.autoCal .enable) = (0x79, ⟨0xA0, 0, 0, 0, 0⟩) ∧ encodeReq (.autoCal .enable) = 0x19 ∧
    buildFrame (.autoCal .enable) = ⟨0xFF, 0x01, 0x79, 0xA0, 0x00, 0x00, 0x00, 0x00, 0xE6⟩ ∧
    sum8 (buildFrame (.autoCal .enable)) = 0x19) ∧
  (mux (.autoCal .disable) = (0x79, ⟨0x00, 0, 0, 0, 0⟩) ∧ encodeReq (.autoCal .disable) = 0x18 ∧
    buildFrame (.autoCal .disable) = ⟨0xFF, 0x01, 0x79, 0x00, 0x00, 0x00, 0x00, 0x00, 0x86⟩ ∧
    sum8 (buildFrame (.autoCal .disable)) = 0x79) ∧
  (mux (.setRange .ppm2000) = (0x99, ⟨0, 0, 0, 0x07, 0xD0⟩) ∧ encodeReq (.setRange .ppm2000) = 0x21 ∧
    buildFrame (.setRange .ppm2000) = ⟨0xFF, 0x01, 0x99, 0x00, 0x00, 0x00, 0x07, 0xD0, 0x8F⟩ ∧
    sum8 (buildFrame (.setRange .ppm2000)) = 0x70)

/-- R87, R90, R92, R93, R94: the same for the commands whose payload is the spec's own completion (decisions D8 and D9). -/
def Obligations.CompletedCommandsHaveTheirFrames : Prop :=
  (mux .spanCal = (0x88, ⟨0, 0, 0, 0, 0⟩) ∧ encodeReq .spanCal = 0x10 ∧
    buildFrame .spanCal = ⟨0xFF, 0x01, 0x88, 0x00, 0x00, 0x00, 0x00, 0x00, 0x77⟩) ∧
  (mux (.setRange .ppm1000) = (0x99, ⟨0, 0, 0, 0x03, 0xE8⟩) ∧ encodeReq (.setRange .ppm1000) = 0x20 ∧
    buildFrame (.setRange .ppm1000) = ⟨0xFF, 0x01, 0x99, 0x00, 0x00, 0x00, 0x03, 0xE8, 0x7B⟩) ∧
  (mux (.setRange .ppm3000) = (0x99, ⟨0, 0, 0, 0x0B, 0xB8⟩) ∧ encodeReq (.setRange .ppm3000) = 0x22 ∧
    buildFrame (.setRange .ppm3000) = ⟨0xFF, 0x01, 0x99, 0x00, 0x00, 0x00, 0x0B, 0xB8, 0xA3⟩) ∧
  (mux (.setRange .ppm5000) = (0x99, ⟨0, 0, 0, 0x13, 0x88⟩) ∧ encodeReq (.setRange .ppm5000) = 0x23 ∧
    buildFrame (.setRange .ppm5000) = ⟨0xFF, 0x01, 0x99, 0x00, 0x00, 0x00, 0x13, 0x88, 0xCB⟩) ∧
  (mux (.setRange .ppm10000) = (0x99, ⟨0, 0, 0, 0x27, 0x10⟩) ∧ encodeReq (.setRange .ppm10000) = 0x24 ∧
    buildFrame (.setRange .ppm10000) = ⟨0xFF, 0x01, 0x99, 0x00, 0x00, 0x00, 0x27, 0x10, 0x2F⟩)

/-- R49, R59, R96: every frame a command builds has the fixed header, one of the five opcodes and its checksum, and different
commands build different frames. -/
def Obligations.CommandFramesAreWellMadeAndDistinct : Prop :=
  (∀ c : Command, (buildFrame c).f0 = 0xFF ∧ (buildFrame c).f1 = 0x01 ∧
    (buildFrame c).f2 ∈ ([0x86, 0x87, 0x88, 0x79, 0x99] : List Byte) ∧ (buildFrame c).payload = (mux c).2 ∧
    (buildFrame c).f8 = ck (buildFrame c)) ∧
  (∀ c d : Command, buildFrame c = buildFrame d → c = d)

/-! ## The ten requests -/

/-- ACCEPT (R98) of `READ_CO2`, `ZERO_CAL` and `SPAN_CAL`, from each of Idle, Done and Failed (leaving the two end states
directly is the spec's decision D7; that the two calibrations can be requested, D3; the payload of `SPAN_CAL`, D8). Nothing
else changes. -/
def Obligations.ReadAndCalibrationRequestsStart : Prop :=
  ∀ s : State, AtRest s →
    exec .readCo2 s = .next { s with
      cmdl := .readCo2, buf := ⟨0xFF, 0x01, 0x86, 0x00, 0x00, 0x00, 0x00, 0x00, 0x79⟩,
      idx := 0, err := .none, ph := .sending } ∧
    exec .zeroCal s = .next { s with
      cmdl := .zeroCal, buf := ⟨0xFF, 0x01, 0x87, 0x00, 0x00, 0x00, 0x00, 0x00, 0x78⟩,
      idx := 0, err := .none, ph := .sending } ∧
    exec .spanCal s = .next { s with
      cmdl := .spanCal, buf := ⟨0xFF, 0x01, 0x88, 0x00, 0x00, 0x00, 0x00, 0x00, 0x77⟩,
      idx := 0, err := .none, ph := .sending }

/-- ACCEPT (R98) of `AUTO_CAL.OFF` and `AUTO_CAL.ON` (decision D7). Nothing else changes. -/
def Obligations.AutoCalRequestsStart : Prop :=
  ∀ s : State, AtRest s →
    exec .autoCalOff s = .next { s with
      cmdl := .autoCal .disable, buf := ⟨0xFF, 0x01, 0x79, 0x00, 0x00, 0x00, 0x00, 0x00, 0x86⟩,
      idx := 0, err := .none, ph := .sending } ∧
    exec .autoCalOn s = .next { s with
      cmdl := .autoCal .enable, buf := ⟨0xFF, 0x01, 0x79, 0xA0, 0x00, 0x00, 0x00, 0x00, 0xE6⟩,
      idx := 0, err := .none, ph := .sending }

/-- ACCEPT (R98) of the five `SET_RANGE` requests (decisions D7 and D9). Nothing else changes. -/
def Obligations.SetRangeRequestsStart : Prop :=
  ∀ s : State, AtRest s →
    exec .setRange1000 s = .next { s with
      cmdl := .setRange .ppm1000, buf := ⟨0xFF, 0x01, 0x99, 0x00, 0x00, 0x00, 0x03, 0xE8, 0x7B⟩,
      idx := 0, err := .none, ph := .sending } ∧
    exec .setRange2000 s = .next { s with
      cmdl := .setRange .ppm2000, buf := ⟨0xFF, 0x01, 0x99, 0x00, 0x00, 0x00, 0x07, 0xD0, 0x8F⟩,
      idx := 0, err := .none, ph := .sending } ∧
    exec .setRange3000 s = .next { s with
      cmdl := .setRange .ppm3000, buf := ⟨0xFF, 0x01, 0x99, 0x00, 0x00, 0x00, 0x0B, 0xB8, 0xA3⟩,
      idx := 0, err := .none, ph := .sending } ∧
    exec .setRange5000 s = .next { s with
      cmdl := .setRange .ppm5000, buf := ⟨0xFF, 0x01, 0x99, 0x00, 0x00, 0x00, 0x13, 0x88, 0xCB⟩,
      idx := 0, err := .none, ph := .sending } ∧
    exec .setRange10000 s = .next { s with
      cmdl := .setRange .ppm10000, buf := ⟨0xFF, 0x01, 0x99, 0x00, 0x00, 0x00, 0x27, 0x10, 0x2F⟩,
      idx := 0, err := .none, ph := .sending }

/-- R107: while busy no request changes anything (the spec's decision D6; that the model answers the unchanged state is log 5). -/
def Obligations.BusyBlockIgnoresEveryRequest : Prop :=
  ∀ (s : State) (i : Instr), Busy s →
    i ∈ [Instr.readCo2, .zeroCal, .spanCal, .autoCalOff, .autoCalOn, .setRange1000, .setRange2000, .setRange3000,
      .setRange5000, .setRange10000] →
    exec i s = .next s

/-- R108, R58: a reserved request word changes nothing in any state (the spec's decision D5; that the model answers the
unchanged state is log 6). -/
def Obligations.ReservedRequestChangesNothing : Prop :=
  ∀ (s : State) (w : BitVec 6) (rest : List Input), s.inputs = .present (.req w) :: rest →
    w ∉ ([0x00, 0x08, 0x10, 0x18, 0x19, 0x20, 0x21, 0x22, 0x23, 0x24] : List (BitVec 6)) →
    step s = .next { s with inputs := rest }

/-! ## The byte steps -/

/-- TX_NEXT (R99) and TX_LAST (R100). The last clause is R100's sentence on the nine bytes: it needs the two invariants. -/
def Obligations.AcceptedByteIsLoggedAndCounted : Prop :=
  ∀ (s : State) (rest : List Input), s.inputs = .txAccept :: rest → s.ph = .sending →
    (s.idx.val < 8 → step s = .next { s with
      inputs := rest, txlog := s.txlog ++ [s.buf.get s.idx], idx := s.idx + 1 }) ∧
    (s.idx.val = 8 → step s = .next { s with
      inputs := rest, txlog := s.txlog ++ [s.buf.get 8], idx := 0, ph := .awaiting }) ∧
    (s.idx.val = 8 → Inv s → LogInv s → ∃ t, step s = .next t ∧ (buildFrame t.cmdl).bytes <:+ t.txlog)

/-- TX_FAIL (R101), at any of the nine bytes. -/
def Obligations.WriteErrorEndsTheTransaction : Prop :=
  ∀ (s : State) (rest : List Input), s.inputs = .txError :: rest → s.ph = .sending →
    step s = .next { s with inputs := rest, err := .write, ph := .failed }

/-- RX_NEXT (R102): the byte is stored whatever its value. -/
def Obligations.ReceivedByteIsStoredAtIdx : Prop :=
  ∀ (s : State) (v : Byte) (rest : List Input), s.inputs = .rxData v :: rest → s.ph = .awaiting → s.idx.val < 8 →
    step s = .next { s with
      inputs := rest, buf := s.buf.set s.idx v, rxlog := s.rxlog ++ [v], idx := s.idx + 1 }

/-- RX_LAST_OK (R103): store and validation are one step (the spec's decision D13). -/
def Obligations.MatchingNinthByteEndsInDone : Prop :=
  ∀ (s : State) (v : Byte) (rest : List Input), s.inputs = .rxData v :: rest → s.ph = .awaiting → s.idx.val = 8 →
    ck s.buf = v →
    step s = .next { s with
      inputs := rest, buf := s.buf.set 8 v, rxlog := s.rxlog ++ [v], ph := .done }

/-- RX_LAST_BAD (R104). -/
def Obligations.DifferingNinthByteEndsInChecksumError : Prop :=
  ∀ (s : State) (v : Byte) (rest : List Input), s.inputs = .rxData v :: rest → s.ph = .awaiting → s.idx.val = 8 →
    ck s.buf ≠ v →
    step s = .next { s with
      inputs := rest, buf := s.buf.set 8 v, rxlog := s.rxlog ++ [v], err := .checksum, ph := .failed }

/-- RX_FAIL (R105), at any of the nine bytes, the ninth among them. -/
def Obligations.ReadErrorEndsTheTransaction : Prop :=
  ∀ (s : State) (rest : List Input), s.inputs = .rxError :: rest → s.ph = .awaiting →
    step s = .next { s with inputs := rest, err := .read, ph := .failed }

/-- R33, R106: a busy block whose transport does not answer yet is unchanged, and one no agent acts on any more is held (the
model's fault, log 7). -/
def Obligations.UnansweredBlockIsHeld : Prop :=
  ∀ s : State, Busy s →
    (∀ rest, s.inputs = .quiet :: rest → step s = .next { s with inputs := rest }) ∧
    (s.inputs = [] → step s = .fault .held)

/-- Section 2.7 of spec/95_test_vectors.md, last row: an answer to an access that is not pending is no event (the model's
refusal, log 8). -/
def Obligations.AnswerWithoutPendingAccessIsNoEvent : Prop :=
  ∀ (s : State) (i : Input) (rest : List Input), s.inputs = i :: rest →
    ((i = .txAccept ∨ i = .txError) → s.ph ≠ .sending → step s = .refused .noSuchEvent) ∧
    ((i = .rxError ∨ ∃ v, i = .rxData v) → s.ph ≠ .awaiting → step s = .refused .noSuchEvent)

/-! ## The frame rows -/

/-- The ten constant command frames and `FRAME.TX` with every operand: the frame a block is sending goes out from `IDX` on, the
block then awaits the reply, and nothing else changes (R43, R99, R100; the meaning of the rows is log 9). -/
def Obligations.OfferedCommandFrameGoesOut : Prop :=
  ∀ (i : Instr) (f : Frame) (s : State), encode i = .tx f → s.ph = .sending → s.buf = f →
    exec i s = .next { s with txlog := s.txlog ++ f.bytes.drop s.idx, idx := 0, ph := .awaiting }

/-- The other states of the same eleven rows: the block sends no other byte (R43 (a), R97; the model's refusal, log 9). -/
def Obligations.UnofferedCommandFrameIsNotSent : Prop :=
  ∀ (i : Instr) (f : Frame) (s : State), encode i = .tx f → ¬(s.ph = .sending ∧ s.buf = f) →
    exec i s = .refused .frameNotOffered

/-- `FRAME.RX`: a response frame that arrives while the block awaits at any `IDX` fills `BUF` from there; the block takes as
many bytes as it needs and no more, checks nothing but the checksum, and ends in Done or in ChecksumError (R37, R39, R102 to
R104; decisions D11 and D13; log 10). At any other time it takes none. -/
def Obligations.ArrivingFrameFillsTheReply : Prop :=
  (∀ (f b : Frame) (s : State), s.ph = .awaiting →
    b.bytes = s.buf.bytes.take s.idx ++ f.bytes.take (9 - s.idx) →
    exec (.frameRx f) s = .next (
      if ck b = b.f8 then
        { s with buf := b, rxlog := s.rxlog ++ f.bytes.take (9 - s.idx), idx := 8, ph := .done }
      else
        { s with buf := b, rxlog := s.rxlog ++ f.bytes.take (9 - s.idx), idx := 8, err := .checksum, ph := .failed })) ∧
  (∀ (f : Frame) (s : State), s.ph ≠ .awaiting → exec (.frameRx f) s = .next s)

/-- The frame rows are the byte steps: a frame passed whole leads to the same state as its bytes passed one by one, from any
`IDX` (R40, R41, R43; logs 9 and 10). -/
def Obligations.WholeFramesAreTheirByteSteps : Prop :=
  (∀ (i : Instr) (f : Frame) (s : State) (rest : List Input), encode i = .tx f → s.ph = .sending → s.buf = f →
    runSteps (9 - s.idx) { s with inputs := List.replicate (9 - s.idx) .txAccept ++ rest } =
      exec i { s with inputs := rest }) ∧
  (∀ (f : Frame) (s : State) (rest : List Input), s.ph = .awaiting →
    runSteps (9 - s.idx)
        { s with inputs := (f.bytes.take (9 - s.idx)).map Input.rxData ++ rest } =
      exec (.frameRx f) { s with inputs := rest })

/-! ## HOST's ports -/

/-- R109: the result HOST reads, line by line. `CONC` carries the value of the first line; elsewhere it is a free value, and
the statement says nothing of it (log 3). -/
def Obligations.ResultIsTheMappingOfTheState : Prop :=
  ∀ s : State,
    (s.ph = .done → s.cmdl = .readCo2 → s.result = .okValue (conc s.buf) ∧ s.concPort = conc s.buf) ∧
    (s.ph = .done → s.cmdl ≠ .readCo2 → s.result = .okUnit) ∧
    (s.ph = .failed → s.err = .write → s.result = .writeError) ∧
    (s.ph = .failed → s.err = .read → s.result = .readError) ∧
    (s.ph = .failed → s.err = .checksum → s.result = .checksumError) ∧
    (s.ph = .idle ∨ s.ph = .sending ∨ s.ph = .awaiting → s.result = .noResult)

/-- R17, R18: HOST's reading of its ports changes nothing of the block, shows `ready`, the codes of `PH` and `ERR` (the spec's
decision D14) and the result, and uses up a draw exactly when `CONC` is not defined (decision D19, logs 3 and 16). -/
def Obligations.SamplingShowsThePortsAndChangesNothing : Prop :=
  ∀ (s : State) (rest : List Input), s.inputs = .sample :: rest →
    ∃ (t : State) (p : PortSample), step s = .next t ∧ SameBlock s t ∧ t.inputs = rest ∧ t.hostSeen = s.hostSeen ++ [p] ∧
      (p.ready = true ↔ AtRest s) ∧
      p.ph = (match s.ph with | .idle => 0 | .sending => 1 | .awaiting => 2 | .done => 3 | .failed => 4) ∧
      p.err = (match s.err with | .none => 0 | .write => 1 | .read => 2 | .checksum => 3) ∧
      p.res = s.result ∧
      (s.ph = .done ∧ s.cmdl = .readCo2 → p.conc = conc s.buf ∧ t.draws = s.draws) ∧
      (¬(s.ph = .done ∧ s.cmdl = .readCo2) → t.draws = s.draws + 1)

/-! ## Rules of the whole machine -/

/-- R106, R107, R144, R136: only TRANSPORT or reset moves a busy block. -/
def Obligations.OnlyTransportOrResetMovesABusyBlock : Prop :=
  ∀ s t : State, Busy s → step s = .next t → ¬ SameBlock s t →
    ∃ i rest, s.inputs = i :: rest ∧ (IsTransport i ∨ i = .reset)

/-- R145, R17: after a transaction nothing changes until the next acceptance or reset, so the result stays readable. -/
def Obligations.ResultStaysUntilTheNextAcceptance : Prop :=
  ∀ s t : State, s.ph = .done ∨ s.ph = .failed → step s = .next t → (∀ c, ¬ AcceptsNext c s) →
    s.inputs.head? ≠ some .reset → SameBlock s t ∧ t.result = s.result ∧ t.ready = true

/-- R16, R46: `CMDL` is written by acceptance, with the command requested, and by reset, by nothing else. -/
def Obligations.CommandIsLatchedOnlyAtAcceptance : Prop :=
  ∀ s t : State, step s = .next t → t.cmdl ≠ s.cmdl →
    AcceptsNext t.cmdl s ∨ s.inputs.head? = some .reset

/-- R15, R124: `ERR` is written by the three failing steps, each in its own situation, and cleared by acceptance and reset. -/
def Obligations.ErrorKindIsWrittenOnlyByItsOwnStep : Prop :=
  ∀ s t : State, step s = .next t → t.err ≠ s.err →
    (t.err = .none ∧ ((∃ c, AcceptsNext c s) ∨ s.inputs.head? = some .reset)) ∨
    (t.err = .write ∧ s.ph = .sending ∧ s.inputs.head? = some .txError) ∨
    (t.err = .read ∧ s.ph = .awaiting ∧ s.inputs.head? = some .rxError) ∨
    (t.err = .checksum ∧ s.ph = .awaiting ∧ valid t.buf = false ∧ ∃ i, s.inputs.head? = some i ∧ IsDelivery i)

/-- R11, R41: `BUF` is written whole by acceptance and reset and by the receive steps from `IDX` on; while sending nothing but
reset touches it. -/
def Obligations.BufferIsWrittenOnlyByAcceptanceAndReception : Prop :=
  ∀ s t : State, step s = .next t → t.buf ≠ s.buf →
    (∃ c, AcceptsNext c s ∧ t.buf = buildFrame c) ∨ s.inputs.head? = some .reset ∨
    (s.ph = .awaiting ∧ (∃ i, s.inputs.head? = some i ∧ IsDelivery i) ∧
      t.buf.bytes.take s.idx = s.buf.bytes.take s.idx)

/-- R27, R28, R43, R146: outside reset the logs only grow, `TXLOG` only while sending and by bytes of the frame in `BUF` from
`IDX` on, `RXLOG` only while awaiting; never both in one step. -/
def Obligations.LogsGrowOnlyInTheirOwnPhase : Prop :=
  ∀ s t : State, step s = .next t → s.inputs.head? ≠ some .reset →
    (t.txlog = s.txlog ∨ (s.ph = .sending ∧ t.rxlog = s.rxlog ∧
      ∃ n, 0 < n ∧ t.txlog = s.txlog ++ (s.buf.bytes.drop s.idx).take n)) ∧
    (t.rxlog = s.rxlog ∨ (s.ph = .awaiting ∧ t.txlog = s.txlog ∧
      ∃ bs, bs ≠ [] ∧ bs.length ≤ 9 - s.idx ∧ t.rxlog = s.rxlog ++ bs ∧
        (s.buf.bytes.take s.idx ++ bs) <+: t.buf.bytes))

/-- The invariants hold after reset. -/
def Obligations.InvariantsHoldAtReset : Prop := Inv State.reset ∧ LogInv State.reset

/-- R24: every step keeps the state invariant, from every state that has it. -/
def Obligations.EveryStepKeepsTheStateInvariant : Prop :=
  ∀ s t : State, Inv s → step s = .next t → Inv t

/-- R13, R100, R118 to R120: every step keeps the log invariant, so in each phase the ends of `TXLOG` and `RXLOG` are exactly
the bytes of this transaction. -/
def Obligations.EveryStepKeepsTheLogInvariant : Prop :=
  ∀ s t : State, Inv s → LogInv s → step s = .next t → LogInv t

/-- R110 to R113, R97: for every command and every nine answers to the writes and to the reads, the steps of the machine end
after at most 19 in the result of the spec's `Run(c, A, B)`, with exactly the accepted bytes on the TX stream and the delivered
ones from the RX stream (decisions D3, D7, D8, D9, D10, D11, D13 and D18 as `Run` and the rules use them). -/
def Obligations.EveryTransactionIsRun : Prop :=
  ∀ (c : Command) (A : List TxAnswer) (B : List RxAnswer) (s : State), A.length = 9 → B.length = 9 → AtRest s →
    (transactionScript c A B).length ≤ 19 ∧
    ∃ t, runSteps (transactionScript c A B).length { s with inputs := transactionScript c A B } = .next t ∧
      t.inputs = [] ∧ AtRest t ∧ t.ph ≠ .idle ∧ t.cmdl = c ∧ t.result = runTransaction c A B ∧
      t.txlog = s.txlog ++ sentBytes A (buildFrame c).bytes ∧
      t.rxlog = s.rxlog ++ (if TxAnswer.error ∈ A then [] else deliveredBytes B)

/-- R22 (a), R23: what reset leaves unspecified is never observed: two runs from states before the first transaction that
differ only in `BUF` and `CMDL` agree, whatever the inputs, in every output, every log and everything HOST reads. -/
def Obligations.UnspecifiedResetContentsAreNeverObserved : Prop :=
  ∀ (k : Nat) (s : State) (b : Frame) (c : Command), s.ph = .idle →
    OutcomesAgree (runSteps k s) (runSteps k { s with buf := b, cmdl := c })
end

