-- ==== Sys2Proof/Laws/Frame.lean ====
section
/-! SUPPORT. Laws/Frame.lean: the laws of frame bytes and of the pure functions CHK, CODEC and MUX. -/

namespace Sys2Proof

@[simp] theorem Frame.get_set_same (f : Frame) (i : Fin 9) (v : Byte) : (f.set i v).get i = v := by
  fin_cases i <;> rfl

theorem Frame.get_set_other (f : Frame) (i j : Fin 9) (v : Byte) (h : j ≠ i) : (f.set i v).get j = f.get j := by
  fin_cases i <;> fin_cases j <;> first | rfl | exact absurd rfl h

@[simp] theorem Frame.bytes_length (f : Frame) : f.bytes.length = Config.frameLen := rfl

@[simp] theorem Frame.summed_length (f : Frame) : f.summed.length = Config.sumLen := rfl

theorem Frame.bytes_eq_summed (f : Frame) : f.bytes = f.summed ++ [f.f8] := rfl

@[simp] theorem Payload.bytes_length (p : Payload) : p.bytes.length = Config.payloadLen := rfl

/-- A frame is its three header bytes, its payload and its checksum byte (R48). -/
theorem Frame.bytes_eq_parts (f : Frame) : f.bytes = [f.f0, f.f1, f.f2] ++ f.payload.bytes ++ [f.f8] := rfl

theorem Frame.bytes_injective {f g : Frame} (h : f.bytes = g.bytes) : f = g := by
  cases f; cases g; simpa [Frame.bytes] using h

theorem Frame.ext_get {f g : Frame} (h : ∀ i, f.get i = g.get i) : f = g := by
  cases f; cases g
  simp only [Frame.mk.injEq]
  exact ⟨h 0, h 1, h 2, h 3, h 4, h 5, h 6, h 7, h 8⟩

/-- The bytes below a stored index do not change. -/
theorem Frame.take_set (f : Frame) (i : Fin 9) (v : Byte) : (f.set i v).bytes.take i = f.bytes.take i := by
  fin_cases i <;> rfl

/-- Storing at the index one past a run of received bytes makes the run one longer. -/
theorem Frame.take_succ_set (f : Frame) (i : Fin 9) (v : Byte) :
    (f.set i v).bytes.take (i.val + 1) = f.bytes.take i ++ [v] := by
  fin_cases i <;> rfl

theorem Frame.take_succ_get (f : Frame) (i : Fin 9) : f.bytes.take (i.val + 1) = f.bytes.take i ++ [f.get i] := by
  fin_cases i <;> rfl

namespace Machine

/-- The checksum of a sequence of any length, at length 8, is `CK` (R72). -/
theorem ck_eq_ckn (f : Frame) : ck f = ckn f.summed := by
  simp [ck, ckn, sum8, Frame.summed]

/-- `CK` is the bitwise complement of the 8-bit sum (R67 (a)). -/
theorem ck_eq_not_sum8 (f : Frame) : ck f = ~~~ sum8 f := by
  simp only [ck, Param.ckConst]
  generalize sum8 f = x
  revert x; decide

/-- `CK` does not read the ninth byte. -/
@[simp] theorem ck_set_last (f : Frame) (v : Byte) : ck (f.set 8 v) = ck f := rfl

theorem valid_iff (f : Frame) : valid f = true ↔ ck f = f.f8 := by simp [valid]

theorem valid_false_iff (f : Frame) : valid f = false ↔ ck f ≠ f.f8 := by simp [valid]

/-- All of `DecodeValidate` in terms of `Valid` (R76). -/
theorem decodeValidate_eq (f : Frame) :
    decodeValidate f = if valid f = true then .ok f else .error .checksumError := by
  simp [decodeValidate, valid]

@[simp] theorem valid_encodeFrame (op : Byte) (p : Payload) : valid (encodeFrame op p) = true := by
  simp [valid, encodeFrame, rawFrame, ck, sum8]

@[simp] theorem valid_buildFrame (c : Command) : valid (buildFrame c) = true := valid_encodeFrame _ _

theorem commandOfFrame_some {f : Frame} {c : Command} (h : commandOfFrame f = some c) : buildFrame c = f := by
  simpa using List.find?_some h

end Machine

end Sys2Proof
end

