-- ==== Sys2Proof/Laws/State.lean ====
section
/-! SUPPORT. Laws/State.lean: one lemma per field per named state update, and what validation does to each field. -/

namespace Sys2Proof.Machine

@[simp] theorem startTransaction_buf (c : Command) (s : State) : (startTransaction c s).buf = buildFrame c := rfl
@[simp] theorem startTransaction_ph (c : Command) (s : State) : (startTransaction c s).ph = .sending := rfl
@[simp] theorem startTransaction_idx (c : Command) (s : State) : (startTransaction c s).idx = 0 := rfl
@[simp] theorem startTransaction_err (c : Command) (s : State) : (startTransaction c s).err = .none := rfl
@[simp] theorem startTransaction_cmdl (c : Command) (s : State) : (startTransaction c s).cmdl = c := rfl
@[simp] theorem startTransaction_txlog (c : Command) (s : State) : (startTransaction c s).txlog = s.txlog := rfl
@[simp] theorem startTransaction_rxlog (c : Command) (s : State) : (startTransaction c s).rxlog = s.rxlog := rfl
@[simp] theorem startTransaction_inputs (c : Command) (s : State) : (startTransaction c s).inputs = s.inputs := rfl
@[simp] theorem startTransaction_hostSeen (c : Command) (s : State) : (startTransaction c s).hostSeen = s.hostSeen := rfl
@[simp] theorem startTransaction_draws (c : Command) (s : State) : (startTransaction c s).draws = s.draws := rfl

@[simp] theorem raiseError_buf (k : ErrKind) (s : State) : (raiseError k s).buf = s.buf := rfl
@[simp] theorem raiseError_ph (k : ErrKind) (s : State) : (raiseError k s).ph = .failed := rfl
@[simp] theorem raiseError_idx (k : ErrKind) (s : State) : (raiseError k s).idx = s.idx := rfl
@[simp] theorem raiseError_err (k : ErrKind) (s : State) : (raiseError k s).err = k := rfl
@[simp] theorem raiseError_cmdl (k : ErrKind) (s : State) : (raiseError k s).cmdl = s.cmdl := rfl
@[simp] theorem raiseError_txlog (k : ErrKind) (s : State) : (raiseError k s).txlog = s.txlog := rfl
@[simp] theorem raiseError_rxlog (k : ErrKind) (s : State) : (raiseError k s).rxlog = s.rxlog := rfl
@[simp] theorem raiseError_inputs (k : ErrKind) (s : State) : (raiseError k s).inputs = s.inputs := rfl
@[simp] theorem raiseError_hostSeen (k : ErrKind) (s : State) : (raiseError k s).hostSeen = s.hostSeen := rfl
@[simp] theorem raiseError_draws (k : ErrKind) (s : State) : (raiseError k s).draws = s.draws := rfl

@[simp] theorem storeByte_buf (v : Byte) (s : State) : (storeByte v s).buf = s.buf.set s.idx v := rfl
@[simp] theorem storeByte_ph (v : Byte) (s : State) : (storeByte v s).ph = s.ph := rfl
@[simp] theorem storeByte_idx (v : Byte) (s : State) : (storeByte v s).idx = s.idx := rfl
@[simp] theorem storeByte_err (v : Byte) (s : State) : (storeByte v s).err = s.err := rfl
@[simp] theorem storeByte_cmdl (v : Byte) (s : State) : (storeByte v s).cmdl = s.cmdl := rfl
@[simp] theorem storeByte_txlog (v : Byte) (s : State) : (storeByte v s).txlog = s.txlog := rfl
@[simp] theorem storeByte_rxlog (v : Byte) (s : State) : (storeByte v s).rxlog = s.rxlog ++ [v] := rfl
@[simp] theorem storeByte_inputs (v : Byte) (s : State) : (storeByte v s).inputs = s.inputs := rfl
@[simp] theorem storeByte_hostSeen (v : Byte) (s : State) : (storeByte v s).hostSeen = s.hostSeen := rfl
@[simp] theorem storeByte_draws (v : Byte) (s : State) : (storeByte v s).draws = s.draws := rfl

@[simp] theorem samplePorts_buf (s : State) : (samplePorts s).buf = s.buf := rfl
@[simp] theorem samplePorts_ph (s : State) : (samplePorts s).ph = s.ph := rfl
@[simp] theorem samplePorts_idx (s : State) : (samplePorts s).idx = s.idx := rfl
@[simp] theorem samplePorts_err (s : State) : (samplePorts s).err = s.err := rfl
@[simp] theorem samplePorts_cmdl (s : State) : (samplePorts s).cmdl = s.cmdl := rfl
@[simp] theorem samplePorts_txlog (s : State) : (samplePorts s).txlog = s.txlog := rfl
@[simp] theorem samplePorts_rxlog (s : State) : (samplePorts s).rxlog = s.rxlog := rfl
@[simp] theorem samplePorts_inputs (s : State) : (samplePorts s).inputs = s.inputs := rfl
@[simp] theorem samplePorts_hostSeen (s : State) : (samplePorts s).hostSeen = s.hostSeen ++ [s.ports] := rfl
@[simp] theorem samplePorts_draws (s : State) : (samplePorts s).draws = if s.concDefined then s.draws else s.draws + 1 := rfl

@[simp] theorem resetBlock_buf (s : State) : (resetBlock s).buf = Frame.fill 0 := rfl
@[simp] theorem resetBlock_ph (s : State) : (resetBlock s).ph = .idle := rfl
@[simp] theorem resetBlock_idx (s : State) : (resetBlock s).idx = 0 := rfl
@[simp] theorem resetBlock_err (s : State) : (resetBlock s).err = .none := rfl
@[simp] theorem resetBlock_cmdl (s : State) : (resetBlock s).cmdl = .readCo2 := rfl
@[simp] theorem resetBlock_txlog (s : State) : (resetBlock s).txlog = [] := rfl
@[simp] theorem resetBlock_rxlog (s : State) : (resetBlock s).rxlog = [] := rfl
@[simp] theorem resetBlock_inputs (s : State) : (resetBlock s).inputs = s.inputs := rfl
@[simp] theorem resetBlock_hostSeen (s : State) : (resetBlock s).hostSeen = s.hostSeen := rfl
@[simp] theorem resetBlock_draws (s : State) : (resetBlock s).draws = s.draws := rfl

/-- The end of a reply in terms of `Valid`. -/
theorem finishReply_eq (s : State) :
    finishReply s = if valid s.buf = true then { s with ph := .done } else { s with err := .checksum, ph := .failed } := by
  unfold finishReply
  rw [decodeValidate_eq]
  by_cases h : valid s.buf = true <;> simp [h, raiseError]

theorem finishReply_valid {s : State} (h : valid s.buf = true) : finishReply s = { s with ph := .done } := by
  simp [finishReply_eq, h]

theorem finishReply_invalid {s : State} (h : valid s.buf = false) :
    finishReply s = { s with err := .checksum, ph := .failed } := by
  simp [finishReply_eq, h]

@[simp] theorem finishReply_buf (s : State) : (finishReply s).buf = s.buf := by
  rw [finishReply_eq]; split <;> rfl
@[simp] theorem finishReply_idx (s : State) : (finishReply s).idx = s.idx := by
  rw [finishReply_eq]; split <;> rfl
@[simp] theorem finishReply_cmdl (s : State) : (finishReply s).cmdl = s.cmdl := by
  rw [finishReply_eq]; split <;> rfl
@[simp] theorem finishReply_txlog (s : State) : (finishReply s).txlog = s.txlog := by
  rw [finishReply_eq]; split <;> rfl
@[simp] theorem finishReply_rxlog (s : State) : (finishReply s).rxlog = s.rxlog := by
  rw [finishReply_eq]; split <;> rfl
@[simp] theorem finishReply_inputs (s : State) : (finishReply s).inputs = s.inputs := by
  rw [finishReply_eq]; split <;> rfl
@[simp] theorem finishReply_hostSeen (s : State) : (finishReply s).hostSeen = s.hostSeen := by
  rw [finishReply_eq]; split <;> rfl
@[simp] theorem finishReply_draws (s : State) : (finishReply s).draws = s.draws := by
  rw [finishReply_eq]; split <;> rfl

theorem ready_iff (s : State) : s.ready = true ↔ s.ph = .idle ∨ s.ph = .done ∨ s.ph = .failed := by
  unfold State.ready; cases s.ph <;> simp [phaseReady]

theorem not_ready_iff (s : State) : s.ready = false ↔ s.ph = .sending ∨ s.ph = .awaiting := by
  unfold State.ready; cases s.ph <;> simp [phaseReady]

end Sys2Proof.Machine
end

