-- ==== Sys2Proof/Laws/Ops.lean ====
section
/-! SUPPORT. Laws/Ops.lean: everything each shared operation can do, said once. -/

namespace Sys2Proof.Machine

@[simp] theorem andThen_next (s : State) (k : State → Out) : andThen (.next s) k = k s := rfl

theorem accept_ready {s : State} (c : Command) (h : s.ready = true) : accept c s = .next (startTransaction c s) := by
  simp [accept, h]

theorem accept_busy {s : State} (c : Command) (h : s.ready = false) : accept c s = .next s := by
  simp [accept, h]

/-- TX_NEXT (R99). -/
theorem txAccept_next {s : State} (h : s.ph = .sending) (hi : s.idx ≠ 8) :
    txAccept s = .next { s with txlog := s.txlog ++ [s.buf.get s.idx], idx := s.idx + 1 } := by
  simp [txAccept, h, hi]

/-- TX_LAST (R100). -/
theorem txAccept_last {s : State} (h : s.ph = .sending) (hi : s.idx = 8) :
    txAccept s = .next { s with txlog := s.txlog ++ [s.buf.get s.idx], idx := 0, ph := .awaiting } := by
  simp [txAccept, h, hi]

theorem txAccept_unasked {s : State} (h : s.ph ≠ .sending) : txAccept s = .refused .noSuchEvent := by
  unfold txAccept; split <;> simp_all

theorem txError_sending {s : State} (h : s.ph = .sending) : txError s = .next (raiseError .write s) := by
  simp [txError, h]

theorem txError_unasked {s : State} (h : s.ph ≠ .sending) : txError s = .refused .noSuchEvent := by
  unfold txError; split <;> simp_all

/-- RX_NEXT (R102). -/
theorem rxData_next {s : State} (v : Byte) (h : s.ph = .awaiting) (hi : s.idx ≠ 8) :
    rxData v s = .next { storeByte v s with idx := s.idx + 1 } := by
  simp [rxData, h, hi]

/-- RX_LAST_OK and RX_LAST_BAD (R103, R104). -/
theorem rxData_last {s : State} (v : Byte) (h : s.ph = .awaiting) (hi : s.idx = 8) :
    rxData v s = .next (finishReply (storeByte v s)) := by
  simp [rxData, h, hi]

theorem rxData_unasked {s : State} (v : Byte) (h : s.ph ≠ .awaiting) : rxData v s = .refused .noSuchEvent := by
  unfold rxData; split <;> simp_all

theorem rxError_awaiting {s : State} (h : s.ph = .awaiting) : rxError s = .next (raiseError .read s) := by
  simp [rxError, h]

theorem rxError_unasked {s : State} (h : s.ph ≠ .awaiting) : rxError s = .refused .noSuchEvent := by
  unfold rxError; split <;> simp_all

/-- The rest of the frame in `BUF` goes out (R43, R99, R100). -/
theorem sendRest_sending {s : State} (h : s.ph = .sending) :
    sendRest 9 s =
      .next { s with txlog := s.txlog ++ s.buf.bytes.drop s.idx, idx := 0, ph := .awaiting } := by
  obtain ⟨buf, ph, idx, err, cmdl, txlog, rxlog, inputs, hostSeen, draws⟩ := s
  subst h
  fin_cases idx <;> simp [sendRest, txAccept, Frame.get, Frame.bytes]

theorem sendFrame_offered {f : Frame} {s : State} (h : s.ph = .sending) (hb : s.buf = f) :
    sendFrame f s =
      .next { s with txlog := s.txlog ++ f.bytes.drop s.idx, idx := 0, ph := .awaiting } := by
  simp [sendFrame, h, hb, Config.frameLen, sendRest_sending h]

theorem sendFrame_not_offered {f : Frame} {s : State} (h : ¬(s.ph = .sending ∧ s.buf = f)) :
    sendFrame f s = .refused .frameNotOffered := by
  simp [sendFrame, h]

theorem deliver_unasked {s : State} (bs : List Byte) (h : s.ph ≠ .awaiting) : deliver bs s = .next s := by
  cases bs with
  | nil => rfl
  | cons b bs => unfold deliver; split <;> simp_all

theorem receiveFrame_unasked {s : State} (f : Frame) (h : s.ph ≠ .awaiting) : receiveFrame f s = .next s :=
  deliver_unasked _ h

theorem finishReply_not_awaiting (s : State) : (finishReply s).ph ≠ .awaiting := by
  rw [finishReply_eq]; split <;> simp

theorem deliver_next {s : State} (v : Byte) (vs : List Byte) (h : s.ph = .awaiting) (hi : s.idx ≠ 8) :
    deliver (v :: vs) s = deliver vs { storeByte v s with idx := s.idx + 1 } := by
  rw [deliver]; simp [h, rxData_next v h hi]

/-- After the ninth byte the block asks for no more: what is left of the list stays with TRANSPORT. -/
theorem deliver_last {s : State} (v : Byte) (vs : List Byte) (h : s.ph = .awaiting) (hi : s.idx = 8) :
    deliver (v :: vs) s = .next (finishReply (storeByte v s)) := by
  rw [deliver]; simp [h, rxData_last v h hi, deliver_unasked vs (finishReply_not_awaiting _)]

/-- What `BUF` holds after the block has taken the bytes it still needs from a frame that arrives. -/
def mergeReply (k : Fin 9) (old f : Frame) : Frame :=
  match k with
  | 0 => f
  | 1 => ⟨old.f0, f.f0, f.f1, f.f2, f.f3, f.f4, f.f5, f.f6, f.f7⟩
  | 2 => ⟨old.f0, old.f1, f.f0, f.f1, f.f2, f.f3, f.f4, f.f5, f.f6⟩
  | 3 => ⟨old.f0, old.f1, old.f2, f.f0, f.f1, f.f2, f.f3, f.f4, f.f5⟩
  | 4 => ⟨old.f0, old.f1, old.f2, old.f3, f.f0, f.f1, f.f2, f.f3, f.f4⟩
  | 5 => ⟨old.f0, old.f1, old.f2, old.f3, old.f4, f.f0, f.f1, f.f2, f.f3⟩
  | 6 => ⟨old.f0, old.f1, old.f2, old.f3, old.f4, old.f5, f.f0, f.f1, f.f2⟩
  | 7 => ⟨old.f0, old.f1, old.f2, old.f3, old.f4, old.f5, old.f6, f.f0, f.f1⟩
  | 8 => ⟨old.f0, old.f1, old.f2, old.f3, old.f4, old.f5, old.f6, old.f7, f.f0⟩

theorem mergeReply_bytes (k : Fin 9) (old f : Frame) :
    (mergeReply k old f).bytes = old.bytes.take k ++ f.bytes.take (9 - k) := by
  fin_cases k <;> rfl

theorem mergeReply_of_bytes {k : Fin 9} {old f b : Frame}
    (h : b.bytes = old.bytes.take k ++ f.bytes.take (9 - k)) : mergeReply k old f = b :=
  Frame.bytes_injective (by rw [mergeReply_bytes, h])

/-- A frame that arrives while the block is `Awaiting` fills `BUF` from `IDX` on and ends the transaction (R102 to R104). -/
theorem receiveFrame_awaiting {s : State} (f : Frame) (h : s.ph = .awaiting) :
    receiveFrame f s =
      .next (finishReply { s with
        buf := mergeReply s.idx s.buf f, rxlog := s.rxlog ++ f.bytes.take (9 - s.idx), idx := 8 }) := by
  obtain ⟨buf, ph, idx, err, cmdl, txlog, rxlog, inputs, hostSeen, draws⟩ := s
  subst h
  fin_cases idx <;>
    simp [receiveFrame, deliver_next, deliver_last, storeByte, Frame.set, Frame.bytes, mergeReply]

end Sys2Proof.Machine
end

