-- ==== Sys2Proof/Laws/Decode.lean ====
section
/-! SUPPORT. Laws/Decode.lean: what the decoder gives and which operation each instruction runs. -/

namespace Sys2Proof

/-- The general command frame of the decoder, guards included. -/
theorem decodeGeneralTx_ok {f : Frame} {i : Instr} (h : decodeGeneralTx f = .ok i) :
    f.f0 = 0xFF ∧ f.f1 = 0x01 ∧ f.f2 ∈ ([0x86, 0x87, 0x88, 0x79, 0x99] : List Byte) ∧ Machine.valid f = true ∧
      i = .frameTx f.f2 f.payload f.f8 := by
  unfold decodeGeneralTx at h
  split at h
  · cases h
  split at h
  · cases h
  split at h
  · cases h
  split at h
  · cases h
  cases h
  simp_all
  tauto

/-- A decoded command frame is a row of the constant table or the general row. -/
theorem decodeTx_ok {f : Frame} {i : Instr} (h : decodeTx f = .ok i) :
    (f, i) ∈ constantFrames ∨
      (constantFrames.find? (fun row => row.1 = f) = none ∧ decodeGeneralTx f = .ok i) := by
  unfold decodeTx at h
  split at h
  · rename_i row hrow
    cases h
    have h1 := List.find?_some hrow
    have h2 := List.mem_of_find?_eq_some hrow
    simp only [decide_eq_true_eq] at h1
    subst h1
    exact .inl h2
  · exact .inr ⟨‹_›, h⟩

namespace Machine

theorem exec_instrOfCommand (c : Command) (s : State) : exec (instrOfCommand c) s = accept c s := by
  cases c with
  | readCo2 => rfl
  | zeroCal => rfl
  | spanCal => rfl
  | autoCal a => cases a <;> rfl
  | setRange r => cases r <;> rfl

/-- Every command frame that decodes runs as the sending of that frame. -/
theorem exec_of_decodeTx {f : Frame} {i : Instr} (h : decodeTx f = .ok i) (s : State) : exec i s = sendFrame f s := by
  rcases decodeTx_ok h with h | ⟨-, h⟩
  · simp only [constantFrames, plainFrames, rangeFrames, List.cons_append, List.nil_append, List.mem_cons,
      Prod.mk.injEq, List.not_mem_nil, or_false] at h
    rcases h with h | h | h | h | h | h | h | h | h | h <;> obtain ⟨rfl, rfl⟩ := h <;> rfl
  · obtain ⟨h0, h1, -, -, rfl⟩ := decodeGeneralTx_ok h
    obtain ⟨f0, f1, f2, f3, f4, f5, f6, f7, f8⟩ := f
    subst h0 h1
    rfl

/-- What runs for a request word. -/
theorem runPacket_req (w : BitVec 6) (s : State) :
    runPacket (.req w) s = match decodeReq w with
      | some c => accept c s
      | none => .next s := by
  simp only [runPacket, decode]
  cases decodeReq w with
  | none => rfl
  | some c => exact exec_instrOfCommand c s

/-- What runs for nine bytes on the TX stream. -/
theorem runPacket_tx (f : Frame) (s : State) :
    runPacket (.tx f) s = match decodeTx f with
      | .ok _ => sendFrame f s
      | .error _ => .refused .notACommandFrame := by
  simp only [runPacket, decode]
  cases h : decodeTx f with
  | ok i => exact exec_of_decodeTx h s
  | error r =>
    have hr : r ≠ .reservedRequest := by
      rintro rfl
      unfold decodeTx at h
      split at h
      · cases h
      · unfold decodeGeneralTx at h
        split at h <;> try cases h
        split at h <;> try cases h
        split at h <;> try cases h
        split at h <;> cases h
    cases r <;> first | rfl | exact absurd rfl hr

@[simp] theorem runPacket_rx (f : Frame) (s : State) : runPacket (.rx f) s = receiveFrame f s := rfl

end Machine

end Sys2Proof
end

