-- ==== Sys2Proof/Laws/PerInstr.lean ====
section
/-! SUPPORT. Laws/PerInstr.lean: one lemma per instruction. Family CommandFrame: the words the encoder gives a well-formed
instruction of the TX stream begin with the start marker and the sensor address and satisfy the checksum (R49, R75). -/

namespace Sys2Proof.Laws.CommandFrame

/-- A well-formed instruction on the TX stream is a frame with the fixed header and a matching checksum. -/
def Statement (i : Instr) : Prop :=
  wellFormed i = true → ∀ f, encode i = .tx f → f.f0 = 0xFF ∧ f.f1 = 0x01 ∧ Machine.valid f = true

theorem readCo2 : Statement .readCo2 := by
  intro _ f h; cases h

theorem zeroCal : Statement .zeroCal := by
  intro _ f h; cases h

theorem spanCal : Statement .spanCal := by
  intro _ f h; cases h

theorem autoCalOff : Statement .autoCalOff := by
  intro _ f h; cases h

theorem autoCalOn : Statement .autoCalOn := by
  intro _ f h; cases h

theorem setRange1000 : Statement .setRange1000 := by
  intro _ f h; cases h

theorem setRange2000 : Statement .setRange2000 := by
  intro _ f h; cases h

theorem setRange3000 : Statement .setRange3000 := by
  intro _ f h; cases h

theorem setRange5000 : Statement .setRange5000 := by
  intro _ f h; cases h

theorem setRange10000 : Statement .setRange10000 := by
  intro _ f h; cases h

theorem frameReadCo2 : Statement .frameReadCo2 := by
  intro _ f h; cases h; decide

theorem frameZeroCal : Statement .frameZeroCal := by
  intro _ f h; cases h; decide

theorem frameSpanCal : Statement .frameSpanCal := by
  intro _ f h; cases h; decide

theorem frameAutoCalOff : Statement .frameAutoCalOff := by
  intro _ f h; cases h; decide

theorem frameAutoCalOn : Statement .frameAutoCalOn := by
  intro _ f h; cases h; decide

theorem frameSetRange1000 : Statement .frameSetRange1000 := by
  intro _ f h; cases h; decide

theorem frameSetRange2000 : Statement .frameSetRange2000 := by
  intro _ f h; cases h; decide

theorem frameSetRange3000 : Statement .frameSetRange3000 := by
  intro _ f h; cases h; decide

theorem frameSetRange5000 : Statement .frameSetRange5000 := by
  intro _ f h; cases h; decide

theorem frameSetRange10000 : Statement .frameSetRange10000 := by
  intro _ f h; cases h; decide

theorem frameTx (op : Byte) (p : Payload) (ck : Byte) : Statement (.frameTx op p ck) := by
  intro hw f h
  cases h
  simp only [wellFormed, Bool.and_eq_true] at hw
  exact ⟨rfl, rfl, hw.1.2⟩

theorem frameRx (g : Frame) : Statement (.frameRx g) := by
  intro _ f h; cases h

end Sys2Proof.Laws.CommandFrame
end

