-- ==== Sys2Proof/Laws/Step.lean ====
section
/-! SUPPORT. Laws/Step.lean: everything one step of the machine can do, said once. -/

namespace Sys2Proof.Machine

open Sys2Proof.Safety

/-- The moves of the machine: `StepMove s t` lists every way in which a step leads from `s` to the next state `t`. -/
inductive StepMove (s : State) : State → Prop where
  | waits (hin : s.inputs = []) (hr : s.ready = true) : StepMove s s
  | quiet (rest : List Input) (hin : s.inputs = .quiet :: rest) : StepMove s { s with inputs := rest }
  | reserved (w : BitVec 6) (rest : List Input) (hin : s.inputs = .present (.req w) :: rest)
      (hw : decodeReq w = none) : StepMove s { s with inputs := rest }
  | turnedAway (w : BitVec 6) (c : Command) (rest : List Input) (hin : s.inputs = .present (.req w) :: rest)
      (hw : decodeReq w = some c) (hr : s.ready = false) : StepMove s { s with inputs := rest }
  | accepts (w : BitVec 6) (c : Command) (rest : List Input) (hin : s.inputs = .present (.req w) :: rest)
      (hw : decodeReq w = some c) (hr : s.ready = true) :
      StepMove s (startTransaction c { s with inputs := rest })
  | txNext (rest : List Input) (hin : s.inputs = .txAccept :: rest) (hp : s.ph = .sending) (hi : s.idx ≠ 8) :
      StepMove s { s with inputs := rest, txlog := s.txlog ++ [s.buf.get s.idx], idx := s.idx + 1 }
  | txLast (rest : List Input) (hin : s.inputs = .txAccept :: rest) (hp : s.ph = .sending) (hi : s.idx = 8) :
      StepMove s { s with inputs := rest, txlog := s.txlog ++ [s.buf.get s.idx], idx := 0, ph := .awaiting }
  | txFails (rest : List Input) (hin : s.inputs = .txError :: rest) (hp : s.ph = .sending) :
      StepMove s (raiseError .write { s with inputs := rest })
  | rxNext (v : Byte) (rest : List Input) (hin : s.inputs = .rxData v :: rest) (hp : s.ph = .awaiting)
      (hi : s.idx ≠ 8) :
      StepMove s { s with inputs := rest, buf := s.buf.set s.idx v, rxlog := s.rxlog ++ [v], idx := s.idx + 1 }
  | rxLast (v : Byte) (rest : List Input) (hin : s.inputs = .rxData v :: rest) (hp : s.ph = .awaiting)
      (hi : s.idx = 8) :
      StepMove s (finishReply (storeByte v { s with inputs := rest }))
  | rxFails (rest : List Input) (hin : s.inputs = .rxError :: rest) (hp : s.ph = .awaiting) :
      StepMove s (raiseError .read { s with inputs := rest })
  | frameOut (f : Frame) (rest : List Input) (hin : s.inputs = .present (.tx f) :: rest) (hp : s.ph = .sending)
      (hb : s.buf = f) :
      StepMove s { s with inputs := rest, txlog := s.txlog ++ f.bytes.drop s.idx, idx := 0, ph := .awaiting }
  | frameIn (f : Frame) (rest : List Input) (hin : s.inputs = .present (.rx f) :: rest) (hp : s.ph = .awaiting) :
      StepMove s (finishReply { s with
        inputs := rest, buf := mergeReply s.idx s.buf f, rxlog := s.rxlog ++ f.bytes.take (9 - s.idx), idx := 8 })
  | frameUnasked (f : Frame) (rest : List Input) (hin : s.inputs = .present (.rx f) :: rest) (hp : s.ph ≠ .awaiting) :
      StepMove s { s with inputs := rest }
  | samples (rest : List Input) (hin : s.inputs = .sample :: rest) : StepMove s (samplePorts { s with inputs := rest })
  | resets (rest : List Input) (hin : s.inputs = .reset :: rest) : StepMove s (resetBlock { s with inputs := rest })

theorem step_cons {s : State} {i : Input} {rest : List Input} (h : s.inputs = i :: rest) :
    step s = react i { s with inputs := rest } := by
  simp [step, h]

theorem step_nil {s : State} (h : s.inputs = []) : step s = noInput s := by
  simp [step, h]

/-- A step that answers a next state makes one of the moves. -/
theorem stepMove_of_step {s t : State} (h : step s = .next t) : StepMove s t := by
  cases hin : s.inputs with
  | nil =>
    rw [step_nil hin, noInput] at h
    split at h
    · cases h; exact .waits hin ‹_›
    · cases h
  | cons i rest =>
    rw [step_cons hin] at h
    cases i with
    | quiet => cases h; exact .quiet rest hin
    | sample => cases h; exact .samples rest hin
    | reset => cases h; exact .resets rest hin
    | txAccept =>
      by_cases hp : s.ph = .sending
      · by_cases hi : s.idx = 8
        · rw [react, txAccept_last (by exact hp) (by exact hi)] at h; cases h; exact .txLast rest hin hp hi
        · rw [react, txAccept_next (by exact hp) (by exact hi)] at h; cases h; exact .txNext rest hin hp hi
      · rw [react, txAccept_unasked (by exact hp)] at h; cases h
    | txError =>
      by_cases hp : s.ph = .sending
      · rw [react, txError_sending (by exact hp)] at h; cases h; exact .txFails rest hin hp
      · rw [react, txError_unasked (by exact hp)] at h; cases h
    | rxData v =>
      by_cases hp : s.ph = .awaiting
      · by_cases hi : s.idx = 8
        · rw [react, rxData_last v (by exact hp) (by exact hi)] at h; cases h; exact .rxLast v rest hin hp hi
        · rw [react, rxData_next v (by exact hp) (by exact hi)] at h; cases h; exact .rxNext v rest hin hp hi
      · rw [react, rxData_unasked v (by exact hp)] at h; cases h
    | rxError =>
      by_cases hp : s.ph = .awaiting
      · rw [react, rxError_awaiting (by exact hp)] at h; cases h; exact .rxFails rest hin hp
      · rw [react, rxError_unasked (by exact hp)] at h; cases h
    | present p =>
      cases p with
      | req w =>
        rw [react, runPacket_req] at h
        cases hw : decodeReq w with
        | none => rw [hw] at h; cases h; exact .reserved w rest hin hw
        | some c =>
          rw [hw] at h
          cases hr : s.ready with
          | true => dsimp only at h; rw [accept_ready c (by exact hr)] at h; cases h; exact .accepts w c rest hin hw hr
          | false => dsimp only at h; rw [accept_busy c (by exact hr)] at h; cases h; exact .turnedAway w c rest hin hw hr
      | tx f =>
        rw [react, runPacket_tx] at h
        cases hd : decodeTx f with
        | error r => rw [hd] at h; cases h
        | ok i =>
          rw [hd] at h
          dsimp only at h
          by_cases ho : s.ph = .sending ∧ s.buf = f
          · rw [sendFrame_offered (by exact ho.1) (by exact ho.2)] at h; cases h; exact .frameOut f rest hin ho.1 ho.2
          · rw [sendFrame_not_offered (by exact ho)] at h; cases h
      | rx f =>
        rw [react, runPacket_rx] at h
        by_cases hp : s.ph = .awaiting
        · rw [receiveFrame_awaiting f (by exact hp)] at h; cases h; exact .frameIn f rest hin hp
        · rw [receiveFrame_unasked f (by exact hp)] at h; cases h; exact .frameUnasked f rest hin hp

@[simp] theorem runSteps_zero (s : State) : runSteps 0 s = .next s := rfl

/-- One more step of a run. -/
theorem runSteps_next {s t : State} (k : Nat) (h : step s = .next t) : runSteps (k + 1) s = runSteps k t := by
  simp only [runSteps, Host.Core.run, Sys2Proof.core, h]

theorem runSteps_fault {s : State} {r : Fault} (k : Nat) (h : step s = .fault r) : runSteps (k + 1) s = .fault r := by
  simp only [runSteps, Host.Core.run, Sys2Proof.core, h]

theorem runSteps_refused {s : State} {r : Refusal} (k : Nat) (h : step s = .refused r) :
    runSteps (k + 1) s = .refused r := by
  simp only [runSteps, Host.Core.run, Sys2Proof.core, h]

/-- Two runs one after the other. -/
theorem runSteps_add (j k : Nat) (s : State) : runSteps (j + k) s = andThen (runSteps j s) (runSteps k) := by
  induction j generalizing s with
  | zero => simp
  | succ j ih =>
    rw [Nat.add_right_comm]
    cases h : step s with
    | next t => rw [runSteps_next _ h, runSteps_next _ h, ih]
    | fault r => rw [runSteps_fault _ h, runSteps_fault _ h]; rfl
    | refused r => rw [runSteps_refused _ h, runSteps_refused _ h]; rfl

end Sys2Proof.Machine
end

