-- ==== Sys2Proof/Tests/Slice0.lean ====
section
/-! SUPPORT. Tests/Slice0.lean: small tests and the witnesses of the statements' hypotheses. Expected values come from spec/:
the rows of opcode_table.json and the vectors of 95_test_vectors.md; each block names its source. -/

namespace Sys2Proof.Tests

open Sys2Proof.Machine Sys2Proof.Safety

/-- Whether an outcome is a next state with the property. -/
def after (o : Out) (p : State → Bool) : Bool :=
  match o with
  | .next t => p t
  | .fault _ => false
  | .refused _ => false

/-- The reset state with one input waiting. -/
def withInput (i : Input) : State := { State.reset with inputs := [i] }

/-- A block that has sent `k` bytes of the frame of `c`, with one input waiting. -/
def sendingAt (c : Command) (k : Fin 9) (i : Input) : State :=
  { State.reset with
    buf := buildFrame c, cmdl := c, ph := .sending, idx := k, txlog := (buildFrame c).bytes.take k, inputs := [i] }

/-- A block that sent the frame of `c` and has received the first `k` bytes of `f`, with one input waiting. -/
def awaitingAt (c : Command) (f : Frame) (k : Fin 9) (i : Input) : State :=
  { State.reset with
    buf := f, cmdl := c, ph := .awaiting, idx := k, txlog := (buildFrame c).bytes, rxlog := f.bytes.take k, inputs := [i] }

/-- A block that has received `f` for a `READ_CO2`, with one input waiting. -/
def doneWith (f : Frame) (i : Input) : State :=
  { State.reset with buf := f, ph := .done, idx := 8, inputs := [i] }

/-- The reply of program P1 (spec/95_test_vectors.md section 3): 1200 ppm. -/
def reply1200 : Frame := ⟨0xFF, 0x01, 0x04, 0xB0, 0x00, 0x00, 0x00, 0x00, 0x4B⟩

/-- The nine bytes of transaction 2 of program P4: the same reply read one byte late. -/
def reply260 : Frame := ⟨0x4B, 0xFF, 0x01, 0x04, 0xB0, 0x00, 0x00, 0x00, 0x00⟩

/-! ### Well-formedness: one ill-formed term for each check, refused -/

theorem test_illformed_opcode : wellFormed (.frameTx 0x00 ⟨0, 0, 0, 0, 0⟩ 0xFF) = false := by decide

theorem test_illformed_checksum : wellFormed (.frameTx 0x88 ⟨0, 0, 0, 0x07, 0xD0⟩ 0xA1) = false := by decide

theorem test_illformed_constant_row : wellFormed (.frameTx 0x86 ⟨0, 0, 0, 0, 0⟩ 0x79) = false := by decide

theorem test_wellformed_scenario_c : wellFormed (.frameTx 0x88 ⟨0, 0, 0, 0x07, 0xD0⟩ 0xA0) = true := by decide

/-! ### Decoding: the word of every row of spec/opcode_table.json -/

theorem test_decode_read_co2 : decode (.req 0b000000) = .ok .readCo2 := by decide
theorem test_decode_zero_cal : decode (.req 0b001000) = .ok .zeroCal := by decide
theorem test_decode_span_cal : decode (.req 0b010000) = .ok .spanCal := by decide
theorem test_decode_auto_cal_off : decode (.req 0b011000) = .ok .autoCalOff := by decide
theorem test_decode_auto_cal_on : decode (.req 0b011001) = .ok .autoCalOn := by decide
theorem test_decode_set_range1000 : decode (.req 0b100000) = .ok .setRange1000 := by decide
theorem test_decode_set_range2000 : decode (.req 0b100001) = .ok .setRange2000 := by decide
theorem test_decode_set_range3000 : decode (.req 0b100010) = .ok .setRange3000 := by decide
theorem test_decode_set_range5000 : decode (.req 0b100011) = .ok .setRange5000 := by decide
theorem test_decode_set_range10000 : decode (.req 0b100100) = .ok .setRange10000 := by decide

theorem test_decode_frame_read_co2 : decode (.tx ⟨0xFF, 0x01, 0x86, 0x00, 0x00, 0x00, 0x00, 0x00, 0x79⟩) =
    .ok .frameReadCo2 := by decide
theorem test_decode_frame_zero_cal : decode (.tx ⟨0xFF, 0x01, 0x87, 0x00, 0x00, 0x00, 0x00, 0x00, 0x78⟩) =
    .ok .frameZeroCal := by decide
theorem test_decode_frame_span_cal : decode (.tx ⟨0xFF, 0x01, 0x88, 0x00, 0x00, 0x00, 0x00, 0x00, 0x77⟩) =
    .ok .frameSpanCal := by decide
theorem test_decode_frame_auto_cal_off : decode (.tx ⟨0xFF, 0x01, 0x79, 0x00, 0x00, 0x00, 0x00, 0x00, 0x86⟩) =
    .ok .frameAutoCalOff := by decide
theorem test_decode_frame_auto_cal_on : decode (.tx ⟨0xFF, 0x01, 0x79, 0xA0, 0x00, 0x00, 0x00, 0x00, 0xE6⟩) =
    .ok .frameAutoCalOn := by decide
theorem test_decode_frame_set_range1000 : decode (.tx ⟨0xFF, 0x01, 0x99, 0x00, 0x00, 0x00, 0x03, 0xE8, 0x7B⟩) =
    .ok .frameSetRange1000 := by decide
theorem test_decode_frame_set_range2000 : decode (.tx ⟨0xFF, 0x01, 0x99, 0x00, 0x00, 0x00, 0x07, 0xD0, 0x8F⟩) =
    .ok .frameSetRange2000 := by decide
theorem test_decode_frame_set_range3000 : decode (.tx ⟨0xFF, 0x01, 0x99, 0x00, 0x00, 0x00, 0x0B, 0xB8, 0xA3⟩) =
    .ok .frameSetRange3000 := by decide
theorem test_decode_frame_set_range5000 : decode (.tx ⟨0xFF, 0x01, 0x99, 0x00, 0x00, 0x00, 0x13, 0x88, 0xCB⟩) =
    .ok .frameSetRange5000 := by decide
theorem test_decode_frame_set_range10000 : decode (.tx ⟨0xFF, 0x01, 0x99, 0x00, 0x00, 0x00, 0x27, 0x10, 0x2F⟩) =
    .ok .frameSetRange10000 := by decide

theorem test_decode_frame_tx : decode (.tx ⟨0xFF, 0x01, 0x88, 0x00, 0x00, 0x00, 0x07, 0xD0, 0xA0⟩) =
    .ok (.frameTx 0x88 ⟨0x00, 0x00, 0x00, 0x07, 0xD0⟩ 0xA0) := by decide

theorem test_decode_frame_rx : decode (.rx ⟨0x12, 0x34, 0x01, 0x90, 0x56, 0x78, 0x9A, 0xBC, 0x04⟩) =
    .ok (.frameRx ⟨0x12, 0x34, 0x01, 0x90, 0x56, 0x78, 0x9A, 0xBC, 0x04⟩) := by decide

theorem test_reject_reserved : decode (.req 0x3F) = .error .reservedRequest := by decide

theorem test_reject_start : decode (.tx ⟨0x7F, 0x01, 0x86, 0, 0, 0, 0, 0, 0x79⟩) = .error .badStart := by decide

theorem test_reject_address : decode (.tx ⟨0xFF, 0x86, 0x01, 0x9A, 0x44, 0, 0, 0, 0x9B⟩) = .error .badAddress := by decide

theorem test_reject_opcode : decode (.tx ⟨0xFF, 0x01, 0x00, 0, 0, 0, 0, 0, 0xFF⟩) = .error .unknownOpcode := by decide

/-- The checksum the losing formula of spec/90_conflicts.md C1 would give. -/
theorem test_reject_checksum : decode (.tx ⟨0xFF, 0x01, 0x86, 0, 0, 0, 0, 0, 0x7A⟩) = .error .badChecksum := by decide

theorem test_table_word_request : decodeTableWord 8 0x21 = some .setRange2000 := by decide

theorem test_table_word_reserved : decodeTableWord 8 0x25 = none := by decide

theorem test_table_word_frame : decodeTableWord 72 0xFF01990000001388CB = some .frameSetRange5000 := by decide

theorem test_table_word_reply : decodeTableWord 72 0xFF0104B0000000004B = some (.frameRx reply1200) := by decide

/-! ### CHK, CODEC and MUX: spec/95_test_vectors.md sections 2.1 to 2.4 -/

theorem test_ck_all_ff : ck ⟨0xFF, 0xFF, 0xFF, 0xFF, 0xFF, 0xFF, 0xFF, 0xFF, 0⟩ = 0x07 := by decide

theorem test_ck_first_byte_not_ff : ck ⟨0x12, 0x34, 0x01, 0x90, 0x56, 0x78, 0x9A, 0xBC, 0⟩ = 0x04 := by decide

theorem test_valid_zeros_then_ff : valid ⟨0, 0, 0, 0, 0, 0, 0, 0, 0xFF⟩ = true := by decide

theorem test_encode_full : encodeFrame 0xFF ⟨0xFF, 0xFF, 0xFF, 0xFF, 0xFF⟩ =
    ⟨0xFF, 0x01, 0xFF, 0xFF, 0xFF, 0xFF, 0xFF, 0xFF, 0x05⟩ := by decide

theorem test_conc_1200 : conc reply1200 = 1200 := by decide

theorem test_conc_largest : conc ⟨0xFF, 0x01, 0xFF, 0xFF, 0, 0, 0, 0, 0x01⟩ = 65535 := by decide

/-! ### Every instruction once, in one step (spec/30_encoding.md R57; section 2.7 of spec/95_test_vectors.md) -/

theorem test_request_read_co2 : after (step (withInput (.present (.req 0b000000)))) (fun t =>
    t.ph = .sending && t.idx = 0 && t.buf = ⟨0xFF, 0x01, 0x86, 0x00, 0x00, 0x00, 0x00, 0x00, 0x79⟩) = true := by decide

theorem test_request_zero_cal : after (step (withInput (.present (.req 0b001000)))) (fun t =>
    t.ph = .sending && t.idx = 0 && t.buf = ⟨0xFF, 0x01, 0x87, 0x00, 0x00, 0x00, 0x00, 0x00, 0x78⟩) = true := by decide

theorem test_request_span_cal : after (step (withInput (.present (.req 0b010000)))) (fun t =>
    t.ph = .sending && t.idx = 0 && t.buf = ⟨0xFF, 0x01, 0x88, 0x00, 0x00, 0x00, 0x00, 0x00, 0x77⟩) = true := by decide

theorem test_request_auto_cal_off : after (step (withInput (.present (.req 0b011000)))) (fun t =>
    t.ph = .sending && t.idx = 0 && t.buf = ⟨0xFF, 0x01, 0x79, 0x00, 0x00, 0x00, 0x00, 0x00, 0x86⟩) = true := by decide

theorem test_request_auto_cal_on : after (step (withInput (.present (.req 0b011001)))) (fun t =>
    t.ph = .sending && t.idx = 0 && t.buf = ⟨0xFF, 0x01, 0x79, 0xA0, 0x00, 0x00, 0x00, 0x00, 0xE6⟩) = true := by decide

theorem test_request_set_range1000 : after (step (withInput (.present (.req 0b100000)))) (fun t =>
    t.ph = .sending && t.idx = 0 && t.buf = ⟨0xFF, 0x01, 0x99, 0x00, 0x00, 0x00, 0x03, 0xE8, 0x7B⟩) = true := by decide

theorem test_request_set_range2000 : after (step (withInput (.present (.req 0b100001)))) (fun t =>
    t.ph = .sending && t.idx = 0 && t.buf = ⟨0xFF, 0x01, 0x99, 0x00, 0x00, 0x00, 0x07, 0xD0, 0x8F⟩) = true := by decide

theorem test_request_set_range3000 : after (step (withInput (.present (.req 0b100010)))) (fun t =>
    t.ph = .sending && t.idx = 0 && t.buf = ⟨0xFF, 0x01, 0x99, 0x00, 0x00, 0x00, 0x0B, 0xB8, 0xA3⟩) = true := by decide

theorem test_request_set_range5000 : after (step (withInput (.present (.req 0b100011)))) (fun t =>
    t.ph = .sending && t.idx = 0 && t.buf = ⟨0xFF, 0x01, 0x99, 0x00, 0x00, 0x00, 0x13, 0x88, 0xCB⟩) = true := by decide

theorem test_request_set_range10000 : after (step (withInput (.present (.req 0b100100)))) (fun t =>
    t.ph = .sending && t.idx = 0 && t.buf = ⟨0xFF, 0x01, 0x99, 0x00, 0x00, 0x00, 0x27, 0x10, 0x2F⟩) = true := by decide

theorem test_frame_read_co2 : after (step (sendingAt .readCo2 0 (.present (.tx
    ⟨0xFF, 0x01, 0x86, 0x00, 0x00, 0x00, 0x00, 0x00, 0x79⟩)))) (fun t =>
    t.ph = .awaiting && t.idx = 0 && t.txlog = [0xFF, 0x01, 0x86, 0x00, 0x00, 0x00, 0x00, 0x00, 0x79]) = true := by
  decide

theorem test_frame_zero_cal : after (step (sendingAt .zeroCal 0 (.present (.tx
    ⟨0xFF, 0x01, 0x87, 0x00, 0x00, 0x00, 0x00, 0x00, 0x78⟩)))) (fun t =>
    t.ph = .awaiting && t.idx = 0 && t.txlog = [0xFF, 0x01, 0x87, 0x00, 0x00, 0x00, 0x00, 0x00, 0x78]) = true := by
  decide

theorem test_frame_span_cal : after (step (sendingAt .spanCal 0 (.present (.tx
    ⟨0xFF, 0x01, 0x88, 0x00, 0x00, 0x00, 0x00, 0x00, 0x77⟩)))) (fun t =>
    t.ph = .awaiting && t.idx = 0 && t.txlog = [0xFF, 0x01, 0x88, 0x00, 0x00, 0x00, 0x00, 0x00, 0x77]) = true := by
  decide

theorem test_frame_auto_cal_off : after (step (sendingAt (.autoCal .disable) 0 (.present (.tx
    ⟨0xFF, 0x01, 0x79, 0x00, 0x00, 0x00, 0x00, 0x00, 0x86⟩)))) (fun t =>
    t.ph = .awaiting && t.idx = 0 && t.txlog = [0xFF, 0x01, 0x79, 0x00, 0x00, 0x00, 0x00, 0x00, 0x86]) = true := by
  decide

theorem test_frame_auto_cal_on : after (step (sendingAt (.autoCal .enable) 0 (.present (.tx
    ⟨0xFF, 0x01, 0x79, 0xA0, 0x00, 0x00, 0x00, 0x00, 0xE6⟩)))) (fun t =>
    t.ph = .awaiting && t.idx = 0 && t.txlog = [0xFF, 0x01, 0x79, 0xA0, 0x00, 0x00, 0x00, 0x00, 0xE6]) = true := by
  decide

theorem test_frame_set_range1000 : after (step (sendingAt (.setRange .ppm1000) 0 (.present (.tx
    ⟨0xFF, 0x01, 0x99, 0x00, 0x00, 0x00, 0x03, 0xE8, 0x7B⟩)))) (fun t =>
    t.ph = .awaiting && t.idx = 0 && t.txlog = [0xFF, 0x01, 0x99, 0x00, 0x00, 0x00, 0x03, 0xE8, 0x7B]) = true := by
  decide

theorem test_frame_set_range2000 : after (step (sendingAt (.setRange .ppm2000) 0 (.present (.tx
    ⟨0xFF, 0x01, 0x99, 0x00, 0x00, 0x00, 0x07, 0xD0, 0x8F⟩)))) (fun t =>
    t.ph = .awaiting && t.idx = 0 && t.txlog = [0xFF, 0x01, 0x99, 0x00, 0x00, 0x00, 0x07, 0xD0, 0x8F]) = true := by
  decide

theorem test_frame_set_range3000 : after (step (sendingAt (.setRange .ppm3000) 0 (.present (.tx
    ⟨0xFF, 0x01, 0x99, 0x00, 0x00, 0x00, 0x0B, 0xB8, 0xA3⟩)))) (fun t =>
    t.ph = .awaiting && t.idx = 0 && t.txlog = [0xFF, 0x01, 0x99, 0x00, 0x00, 0x00, 0x0B, 0xB8, 0xA3]) = true := by
  decide

theorem test_frame_set_range5000 : after (step (sendingAt (.setRange .ppm5000) 0 (.present (.tx
    ⟨0xFF, 0x01, 0x99, 0x00, 0x00, 0x00, 0x13, 0x88, 0xCB⟩)))) (fun t =>
    t.ph = .awaiting && t.idx = 0 && t.txlog = [0xFF, 0x01, 0x99, 0x00, 0x00, 0x00, 0x13, 0x88, 0xCB]) = true := by
  decide

theorem test_frame_set_range10000 : after (step (sendingAt (.setRange .ppm10000) 0 (.present (.tx
    ⟨0xFF, 0x01, 0x99, 0x00, 0x00, 0x00, 0x27, 0x10, 0x2F⟩)))) (fun t =>
    t.ph = .awaiting && t.idx = 0 && t.txlog = [0xFF, 0x01, 0x99, 0x00, 0x00, 0x00, 0x27, 0x10, 0x2F]) = true := by
  decide

/-- `FRAME.TX` with operands of its own runs on a block that offers that frame (Scenario C's bytes). -/
theorem test_frame_tx : after (exec (.frameTx 0x88 ⟨0, 0, 0, 0x07, 0xD0⟩ 0xA0)
    { State.reset with ph := .sending, idx := 7, buf := ⟨0xFF, 0x01, 0x88, 0, 0, 0, 0x07, 0xD0, 0xA0⟩ }) (fun t =>
    t.ph = .awaiting && t.txlog = [0xD0, 0xA0]) = true := by decide

/-- Transaction 4 of program P3: 1200 ppm. -/
theorem test_frame_rx_valid : after (step (awaitingAt .readCo2 (buildFrame .readCo2) 0 (.present (.rx reply1200))))
    (fun t => t.ph = .done && t.result = .okValue 1200 && t.rxlog = reply1200.bytes) = true := by decide

/-- Transaction 1 of program P4: a stale 0x00 is already in `BUF[0]`, the frame fills the other eight bytes, and the checksum
differs. -/
theorem test_frame_rx_slip : after (step (awaitingAt .readCo2 (Frame.fill 0) 1 (.present (.rx reply1200))))
    (fun t => t.ph = .failed && t.err = .checksum && t.buf = ⟨0x00, 0xFF, 0x01, 0x04, 0xB0, 0, 0, 0, 0⟩) = true := by
  decide

/-! ### The byte steps and the other inputs: spec/95_test_vectors.md section 2.7 -/

theorem test_tx_next : after (step (sendingAt .readCo2 7 .txAccept)) (fun t => t.ph = .sending && t.idx = 8) = true := by
  decide

theorem test_tx_last : after (step (sendingAt .readCo2 8 .txAccept)) (fun t =>
    t.ph = .awaiting && t.idx = 0 && t.txlog = [0xFF, 0x01, 0x86, 0, 0, 0, 0, 0, 0x79]) = true := by decide

/-- Transaction 1 of program P3. -/
theorem test_tx_fail : after (step (sendingAt .readCo2 4 .txError)) (fun t =>
    t.ph = .failed && t.idx = 4 && t.err = .write && t.txlog = [0xFF, 0x01, 0x86, 0x00]) = true := by decide

theorem test_rx_next : after (step (awaitingAt .readCo2 (Frame.fill 0) 0 (.rxData 0x12))) (fun t =>
    t.ph = .awaiting && t.idx = 1 && t.buf.f0 = 0x12) = true := by decide

theorem test_rx_last_ok : after (step (awaitingAt .readCo2 reply1200 8 (.rxData 0x4B))) (fun t =>
    t.ph = .done && t.idx = 8 && t.err = .none) = true := by decide

theorem test_rx_last_bad : after (step (awaitingAt .readCo2 reply1200 8 (.rxData 0x4A))) (fun t =>
    t.ph = .failed && t.err = .checksum && t.buf.f8 = 0x4A) = true := by decide

/-- A read failure on the ninth byte is `Read`, not `Checksum`. -/
theorem test_rx_fail_ninth : after (step (awaitingAt .readCo2 reply1200 8 .rxError)) (fun t =>
    t.ph = .failed && t.idx = 8 && t.err = .read) = true := by decide

theorem test_busy_request : after (step (sendingAt .zeroCal 3 (.present (.req 0x00)))) (fun t =>
    t = { sendingAt .zeroCal 3 .quiet with inputs := [] }) = true := by decide

theorem test_reserved_request : after (step (doneWith reply1200 (.present (.req 0x3F)))) (fun t =>
    t.ph = .done && t.result = .okValue 1200) = true := by decide

theorem test_answer_not_asked : step (sendingAt .readCo2 2 (.rxData 0)) = .refused .noSuchEvent := rfl

theorem test_held : step { sendingAt .readCo2 2 .quiet with inputs := [] } = .fault .held := rfl

/-- Program P4's undetected slip: the block reports 260. -/
theorem test_slipped_result : (doneWith reply260 .quiet).result = .okValue 260 := by decide

/-- The read of `CONC` in its defined window uses no free value (R18). -/
theorem test_sample_done : after (step (doneWith reply1200 .sample)) (fun t =>
    t.draws = 0 && t.hostSeen = [⟨true, 3, 0, .okValue 1200, 1200⟩]) = true := by decide

theorem test_reset_while_busy : after (step (awaitingAt .zeroCal reply1200 5 .reset)) (fun t =>
    t = State.reset) = true := by decide

theorem test_fetch_word_first : after (step (State.reset.withFetchWord 8 0x19)) (fun t =>
    t.ph = .sending && t.cmdl = .autoCal .enable) = true := by decide

theorem test_fetch_frame_first : after (step (State.reset.withFetchWord 72 0xFF0187000000000078)) (fun t =>
    t.ph = .awaiting && t.txlog = [0xFF, 0x01, 0x87, 0, 0, 0, 0, 0, 0x78]) = true := by decide

/-! ### Witnesses: the hypotheses of every statement that has some are met together -/

/-- A request waits at rest after a failed transaction. -/
def failedWith (e : ErrKind) (k : Fin 9) (i : Input) : State :=
  { State.reset with ph := .failed, idx := k, err := e, inputs := [i] }

/-- A block that has sent eight bytes of a `READ_CO2`. -/
def lastByte : State := sendingAt .readCo2 8 .txAccept

theorem witness_ResetWorksInEveryState : (awaitingAt .readCo2 reply1200 5 .reset).inputs = .reset :: [] := rfl

theorem witness_StepRunsTheDecodedInstruction :
    ((withInput (.present (.req 0x19))).inputs = .present (.req 0x19) :: [] ∧ decode (.req 0x19) = .ok .autoCalOn) ∧
      decodeTableWord 72 0xFF0188000000000077 = some .frameSpanCal := by decide

theorem witness_DecodeOfEncodeIsTheInstruction :
    wellFormed (.frameTx 0x88 ⟨0, 0, 0, 0x07, 0xD0⟩ 0xA0) = true ∧ wellFormed (.frameRx reply260) = true := by decide

theorem witness_EncodeOfDecodeIsThePacket :
    decode (.tx ⟨0xFF, 0x01, 0x88, 0, 0, 0, 0x07, 0xD0, 0xA0⟩) = .ok (.frameTx 0x88 ⟨0, 0, 0, 0x07, 0xD0⟩ 0xA0) := by decide

theorem witness_EverySingleBitFlipIsDetected : valid (buildFrame .readCo2) = true ∧ 7 < 8 := by decide

theorem witness_DecodeValidateChecksOnlyTheSum :
    reply1200.f8.toNat = 255 - (reply1200.summed.map BitVec.toNat).sum % 256 ∧ (0x4C : Byte) ≠ 0x4B := by decide

theorem witness_ReorderedBytesAreNotDetected : reply260.bytes.Perm reply1200.bytes := by decide

theorem witness_CommandFramesAreWellMadeAndDistinct : buildFrame (.autoCal .enable) = buildFrame (.autoCal .enable) := rfl

theorem witness_ReadAndCalibrationRequestsStart :
    AtRest State.reset ∧ AtRest (doneWith reply1200 .quiet) ∧ AtRest (failedWith .write 4 .quiet) :=
  ⟨.inl rfl, .inr (.inl rfl), .inr (.inr rfl)⟩

theorem witness_AutoCalRequestsStart : AtRest (doneWith reply1200 .quiet) := .inr (.inl rfl)

theorem witness_SetRangeRequestsStart : AtRest (failedWith .read 8 .quiet) := .inr (.inr rfl)

theorem witness_BusyBlockIgnoresEveryRequest :
    Busy (sendingAt .readCo2 3 .quiet) ∧ Busy (awaitingAt .readCo2 reply1200 0 .quiet) := ⟨.inl rfl, .inr rfl⟩

theorem witness_ReservedRequestChangesNothing :
    (withInput (.present (.req 0x01))).inputs = .present (.req 0x01) :: [] ∧
      (0x01 : BitVec 6) ∉ ([0x00, 0x08, 0x10, 0x18, 0x19, 0x20, 0x21, 0x22, 0x23, 0x24] : List (BitVec 6)) := by decide

theorem witness_AcceptedByteIsLoggedAndCounted :
    ((sendingAt .readCo2 7 .txAccept).inputs = .txAccept :: [] ∧ (sendingAt .readCo2 7 .txAccept).ph = .sending ∧
      (sendingAt .readCo2 7 .txAccept).idx.val < 8) ∧
    (lastByte.inputs = .txAccept :: [] ∧ lastByte.ph = .sending ∧ lastByte.idx.val = 8 ∧ Inv lastByte ∧ LogInv lastByte) := by
  refine ⟨by decide, rfl, rfl, rfl, ?_, ?_⟩
  · constructor <;> simp [lastByte, sendingAt, State.reset]
  · constructor <;> simp [lastByte, sendingAt, State.reset, CommandPartlySent]

theorem witness_WriteErrorEndsTheTransaction :
    (sendingAt .readCo2 8 .txError).inputs = .txError :: [] ∧ (sendingAt .readCo2 8 .txError).ph = .sending := ⟨rfl, rfl⟩

theorem witness_ReceivedByteIsStoredAtIdx :
    (awaitingAt .readCo2 reply1200 7 (.rxData 0)).inputs = .rxData 0 :: [] ∧
      (awaitingAt .readCo2 reply1200 7 (.rxData 0)).ph = .awaiting ∧
      (awaitingAt .readCo2 reply1200 7 (.rxData 0)).idx.val < 8 := by decide

theorem witness_MatchingNinthByteEndsInDone :
    (awaitingAt .readCo2 reply1200 8 (.rxData 0x4B)).inputs = .rxData 0x4B :: [] ∧
      (awaitingAt .readCo2 reply1200 8 (.rxData 0x4B)).ph = .awaiting ∧
      (awaitingAt .readCo2 reply1200 8 (.rxData 0x4B)).idx.val = 8 ∧
      ck (awaitingAt .readCo2 reply1200 8 (.rxData 0x4B)).buf = 0x4B := by decide

theorem witness_DifferingNinthByteEndsInChecksumError :
    (awaitingAt .readCo2 reply1200 8 (.rxData 0x4C)).inputs = .rxData 0x4C :: [] ∧
      (awaitingAt .readCo2 reply1200 8 (.rxData 0x4C)).ph = .awaiting ∧
      (awaitingAt .readCo2 reply1200 8 (.rxData 0x4C)).idx.val = 8 ∧
      ck (awaitingAt .readCo2 reply1200 8 (.rxData 0x4C)).buf ≠ 0x4C := by decide

theorem witness_ReadErrorEndsTheTransaction :
    (awaitingAt .readCo2 reply1200 8 .rxError).inputs = .rxError :: [] ∧
      (awaitingAt .readCo2 reply1200 8 .rxError).ph = .awaiting := ⟨rfl, rfl⟩

theorem witness_UnansweredBlockIsHeld :
    (Busy (sendingAt .readCo2 5 .quiet) ∧ (sendingAt .readCo2 5 .quiet).inputs = .quiet :: []) ∧
      (Busy { awaitingAt .readCo2 reply1200 4 .quiet with inputs := [] } ∧
        { awaitingAt .readCo2 reply1200 4 .quiet with inputs := [] }.inputs = []) :=
  ⟨⟨.inl rfl, rfl⟩, .inr rfl, rfl⟩

theorem witness_AnswerWithoutPendingAccessIsNoEvent :
    ((withInput .txError).inputs = .txError :: [] ∧ (withInput .txError).ph ≠ .sending) ∧
      ((sendingAt .readCo2 2 (.rxData 0)).inputs = .rxData 0 :: [] ∧ (sendingAt .readCo2 2 (.rxData 0)).ph ≠ .awaiting) := by
  decide

theorem witness_OfferedCommandFrameGoesOut :
    (encode .frameAutoCalOn = .tx ⟨0xFF, 0x01, 0x79, 0xA0, 0, 0, 0, 0, 0xE6⟩ ∧
      (sendingAt (.autoCal .enable) 8 .quiet).ph = .sending ∧
      (sendingAt (.autoCal .enable) 8 .quiet).buf = ⟨0xFF, 0x01, 0x79, 0xA0, 0, 0, 0, 0, 0xE6⟩) ∧
    encode (.frameTx 0x88 ⟨0, 0, 0, 0x07, 0xD0⟩ 0xA0) = .tx ⟨0xFF, 0x01, 0x88, 0, 0, 0, 0x07, 0xD0, 0xA0⟩ := by decide

theorem witness_UnofferedCommandFrameIsNotSent :
    encode .frameReadCo2 = .tx ⟨0xFF, 0x01, 0x86, 0, 0, 0, 0, 0, 0x79⟩ ∧
      ¬((sendingAt .zeroCal 0 .quiet).ph = .sending ∧
        (sendingAt .zeroCal 0 .quiet).buf = ⟨0xFF, 0x01, 0x86, 0, 0, 0, 0, 0, 0x79⟩) := by decide

theorem witness_ArrivingFrameFillsTheReply :
    ((awaitingAt .readCo2 (Frame.fill 0) 1 .quiet).ph = .awaiting ∧
      Frame.bytes ⟨0x00, 0xFF, 0x01, 0x04, 0xB0, 0, 0, 0, 0⟩ =
        (awaitingAt .readCo2 (Frame.fill 0) 1 .quiet).buf.bytes.take (awaitingAt .readCo2 (Frame.fill 0) 1 .quiet).idx ++
          reply1200.bytes.take (9 - (awaitingAt .readCo2 (Frame.fill 0) 1 .quiet).idx)) ∧
    State.reset.ph ≠ .awaiting := by decide

theorem witness_WholeFramesAreTheirByteSteps :
    (encode .frameZeroCal = .tx ⟨0xFF, 0x01, 0x87, 0, 0, 0, 0, 0, 0x78⟩ ∧ (sendingAt .zeroCal 0 .quiet).ph = .sending ∧
      (sendingAt .zeroCal 0 .quiet).buf = ⟨0xFF, 0x01, 0x87, 0, 0, 0, 0, 0, 0x78⟩) ∧
    (awaitingAt .readCo2 reply1200 8 .quiet).ph = .awaiting := by decide

theorem witness_ResultIsTheMappingOfTheState :
    ((doneWith reply1200 .quiet).ph = .done ∧ (doneWith reply1200 .quiet).cmdl = .readCo2) ∧
    ({ doneWith reply1200 .quiet with cmdl := .zeroCal }.ph = .done ∧
      { doneWith reply1200 .quiet with cmdl := .zeroCal }.cmdl ≠ .readCo2) ∧
    ((failedWith .write 4 .quiet).ph = .failed ∧ (failedWith .write 4 .quiet).err = .write) ∧
    ((failedWith .read 5 .quiet).ph = .failed ∧ (failedWith .read 5 .quiet).err = .read) ∧
    ((failedWith .checksum 8 .quiet).ph = .failed ∧ (failedWith .checksum 8 .quiet).err = .checksum) ∧
    State.reset.ph = .idle := by decide

theorem witness_SamplingShowsThePortsAndChangesNothing :
    ((doneWith reply1200 .sample).inputs = .sample :: [] ∧ (doneWith reply1200 .sample).ph = .done ∧
      (doneWith reply1200 .sample).cmdl = .readCo2) ∧
    (withInput .sample).inputs = .sample :: [] ∧ (withInput .sample).ph ≠ .done := by decide

theorem witness_OnlyTransportOrResetMovesABusyBlock :
    Busy lastByte ∧ ∃ t, step lastByte = .next t ∧ ¬ SameBlock lastByte t :=
  ⟨.inl rfl, _, rfl, fun h => absurd h.2.1 (by decide)⟩

theorem witness_ResultStaysUntilTheNextAcceptance :
    (doneWith reply1200 (.present (.req 0x3F))).ph = .done ∧
      (∃ t, step (doneWith reply1200 (.present (.req 0x3F))) = .next t) ∧
      (∀ c, ¬ AcceptsNext c (doneWith reply1200 (.present (.req 0x3F)))) ∧
      (doneWith reply1200 (.present (.req 0x3F))).inputs.head? ≠ some .reset := by
  refine ⟨rfl, ⟨_, rfl⟩, fun c h => ?_, by decide⟩
  have h2 : (0x3F : BitVec 6) = encodeReq c := by simpa [doneWith] using h.2
  revert h2
  cases c with
  | readCo2 => decide
  | zeroCal => decide
  | spanCal => decide
  | autoCal a => cases a <;> decide
  | setRange r => cases r <;> decide

theorem witness_CommandIsLatchedOnlyAtAcceptance :
    ∃ t, step (withInput (.present (.req 0x21))) = .next t ∧ t.cmdl ≠ (withInput (.present (.req 0x21))).cmdl :=
  ⟨_, rfl, by decide⟩

theorem witness_ErrorKindIsWrittenOnlyByItsOwnStep :
    (∃ t, step (failedWith .write 4 (.present (.req 0x00))) = .next t ∧
      t.err ≠ (failedWith .write 4 (.present (.req 0x00))).err) ∧
    (∃ t, step (awaitingAt .readCo2 reply1200 8 (.rxData 0)) = .next t ∧ t.err ≠ .none) :=
  ⟨⟨_, rfl, by decide⟩, _, rfl, by decide⟩

theorem witness_BufferIsWrittenOnlyByAcceptanceAndReception :
    ∃ t, step (awaitingAt .readCo2 reply1200 0 (.rxData 0)) = .next t ∧
      t.buf ≠ (awaitingAt .readCo2 reply1200 0 (.rxData 0)).buf := ⟨_, rfl, by decide⟩

theorem witness_LogsGrowOnlyInTheirOwnPhase :
    (∃ t, step lastByte = .next t) ∧ lastByte.inputs.head? ≠ some .reset := ⟨⟨_, rfl⟩, by decide⟩

theorem witness_EveryStepKeepsTheStateInvariant : Inv lastByte ∧ ∃ t, step lastByte = .next t :=
  ⟨witness_AcceptedByteIsLoggedAndCounted.2.2.2.2.1, _, rfl⟩

theorem witness_EveryStepKeepsTheLogInvariant : Inv lastByte ∧ LogInv lastByte ∧ ∃ t, step lastByte = .next t :=
  ⟨witness_AcceptedByteIsLoggedAndCounted.2.2.2.2.1, witness_AcceptedByteIsLoggedAndCounted.2.2.2.2.2, _, rfl⟩

theorem witness_EveryTransactionIsRun :
    (List.replicate 9 TxAnswer.accept).length = 9 ∧ (reply1200.bytes.map RxAnswer.data).length = 9 ∧
      AtRest (failedWith .checksum 8 .quiet) := ⟨rfl, rfl, .inr (.inr rfl)⟩

theorem witness_UnspecifiedResetContentsAreNeverObserved : State.reset.ph = .idle := rfl

end Sys2Proof.Tests
end

section
/-! PROOFS. The checksum unit over the integers (spec/40_checksum.md, R65, R66): what `Sum8` and `CK` are as natural
numbers, and the obligation assembled from it. -/

namespace Sys2Proof.Machine

/-- The integer sum of the bytes `Sum8` reads, written out. -/
theorem sum_toNat_summed (f : Frame) :
    (f.summed.map BitVec.toNat).sum = f.f0.toNat + f.f1.toNat + f.f2.toNat + f.f3.toNat + f.f4.toNat + f.f5.toNat +
      f.f6.toNat + f.f7.toNat := by
  simp [Frame.summed, Nat.add_assoc]

/-- R65: the carries lost byte by byte are those a single reduction mod 256 drops. -/
theorem toNat_sum8 (f : Frame) : (sum8 f).toNat = (f.summed.map BitVec.toNat).sum % 256 := by
  simp [sum_toNat_summed, sum8]

/-- R66: the subtraction does not borrow, because a complement never does (R67 (a)). -/
theorem toNat_ck (f : Frame) : (ck f).toNat = 255 - (sum8 f).toNat := by
  rw [ck_eq_not_sum8, BitVec.toNat_not]

/-- Settles O8: R65 and R66 over the integers, with the sum of the summed bytes written out. -/
theorem checksumIsTheIntegerFormula : Obligations.ChecksumIsTheIntegerFormula := by
  intro f
  rw [toNat_ck, toNat_sum8, sum_toNat_summed]
  exact ⟨rfl, rfl⟩

end Sys2Proof.Machine
end

section
/-! PROOFS. The codec (spec/41_frame_codec.md, R73 to R81): what `Encode` builds, what `DecodeValidate` accepts, and why a
change of one byte is always found. -/

namespace Sys2Proof.Machine

/-! ## The two answers of `DecodeValidate` -/

theorem decodeValidate_of_valid {f : Frame} (h : valid f = true) : decodeValidate f = .ok f := by
  rw [decodeValidate_eq, if_pos h]

theorem decodeValidate_of_not_valid {f : Frame} (h : valid f = false) : decodeValidate f = .error .checksumError := by
  rw [decodeValidate_eq, if_neg (Bool.eq_false_iff.mp h)]

/-! ## The encoder -/

/-- The header and the payload do not depend on the checksum byte (R73). -/
theorem summed_encodeFrame (op : Byte) (p : Payload) :
    (encodeFrame op p).summed = [0xFF, 0x01, op, p.p0, p.p1, p.p2, p.p3, p.p4] := rfl

/-- Settles O12: the ninth byte is `CK` because the frame is valid, and `CK` over the integers is R66. -/
theorem encodeIsHeaderPayloadChecksum : Obligations.EncodeIsHeaderPayloadChecksum := by
  intro op p
  refine ⟨summed_encodeFrame op p, ?_⟩
  have hck : ck (encodeFrame op p) = (encodeFrame op p).f8 := (valid_iff _).mp (valid_encodeFrame op p)
  rw [← hck, toNat_ck, toNat_sum8, sum_toNat_summed]
  rfl

/-- Settles O14: an encoded frame is valid. -/
theorem decodeValidateOfEncodeSucceeds : Obligations.DecodeValidateOfEncodeSucceeds :=
  fun op p => decodeValidate_of_valid (valid_encodeFrame op p)

/-! ## A change of one byte -/

/-- R68: the 8-bit sum of all nine bytes of a valid frame is 255. -/
theorem valid_iff_sum8_add (f : Frame) : valid f = true ↔ sum8 f + f.f8 = Param.ckConst := by
  rw [valid_iff, ck, sub_eq_iff_eq_add', eq_comm]

/-- Replacing one byte, whichever it is, moves the 8-bit sum of the nine by the difference of the two values. -/
theorem sum8_add_set (f : Frame) (i : Fin 9) (v : Byte) :
    sum8 (f.set i v) + (f.set i v).f8 + f.get i = sum8 f + f.f8 + v := by
  fin_cases i <;> simp only [Frame.set, Frame.get, sum8] <;> ring

/-- A valid frame stays valid under a change of one byte only if the byte keeps its value. -/
theorem valid_set_iff {f : Frame} (hf : valid f = true) (i : Fin 9) (v : Byte) :
    valid (f.set i v) = true ↔ v = f.get i := by
  have hset := sum8_add_set f i v
  rw [(valid_iff_sum8_add f).mp hf] at hset
  rw [valid_iff_sum8_add]
  constructor
  · intro h
    rw [h] at hset
    exact (add_left_cancel hset).symm
  · rintro rfl
    exact add_right_cancel hset

theorem decodeValidate_set_of_ne {f : Frame} (hf : valid f = true) {i : Fin 9} {v : Byte} (hv : v ≠ f.get i) :
    decodeValidate (f.set i v) = .error .checksumError :=
  decodeValidate_of_not_valid (Bool.eq_false_iff.mpr (mt (valid_set_iff hf i v).mp hv))

/-- Flipping a bit below the width changes the word: the two differ in that bit. -/
theorem xor_twoPow_ne {w k : Nat} (b : BitVec w) (hk : k < w) : b ^^^ BitVec.twoPow w k ≠ b := by
  intro h
  have hbit : (b ^^^ BitVec.twoPow w k).getLsbD k = b.getLsbD k := by rw [h]
  simp [hk] at hbit

/-- Settles O10: a flipped bit changes its byte, and no change of one byte is missed. Undetected: in the frame of READ_CO2
bit 0 of byte 0 cleared and bit 0 of byte 3 set, which leaves the sum alone. -/
theorem everySingleBitFlipIsDetected : Obligations.EverySingleBitFlipIsDetected := by
  refine ⟨fun f i k hf hk => decodeValidate_set_of_ne hf (xor_twoPow_ne (f.get i) hk), ?_⟩
  exact ⟨buildFrame .readCo2, 0, 3, 0, 0, by decide⟩

/-! ## The validator -/

/-- R66, R68: validity over the integers. -/
theorem valid_iff_toNat (f : Frame) :
    valid f = true ↔ f.f8.toNat = 255 - (f.summed.map BitVec.toNat).sum % 256 := by
  rw [valid_iff, ← BitVec.toNat_inj, toNat_ck, toNat_sum8, eq_comm]

theorem valid_set_last_ck (f : Frame) : valid (f.set 8 (ck f)) = true :=
  (valid_iff _).mpr (ck_set_last f (ck f))

/-- Settles O13: validity over the integers; the accepted ninth byte is `CK` of the first eight, and any other differs from it
in one byte. -/
theorem decodeValidateChecksOnlyTheSum : Obligations.DecodeValidateChecksOnlyTheSum := by
  constructor
  · intro f
    simp only [decodeValidate_eq, valid_iff_toNat]
  · intro f
    have hvalid := valid_set_last_ck f
    exact ⟨ck f, decodeValidate_of_valid hvalid, fun d hd => decodeValidate_set_of_ne (i := 8) hvalid hd⟩

end Sys2Proof.Machine
end

section
/-! PROOFS. The sequencer's byte steps (spec/43_sequencer.md, R99 to R105) and the result HOST reads (R109): each step is
the law of its operation (Laws/Ops.lean) on the state whose input has been taken. -/

namespace Sys2Proof.Machine

open Sys2Proof.Safety

/-! ## Sending -/

/-- The byte offered at an index extends the bytes that went out before it. -/
theorem take_succ_suffix_append_get {f : Frame} {k : Fin 9} {log : List Byte} (h : f.bytes.take k <:+ log) :
    f.bytes.take (k.val + 1) <:+ log ++ [f.get k] := by
  rw [Frame.take_succ_get]
  exact List.suffix_append_self_iff.mpr h

/-- R100: the ninth byte completes the command frame at the end of `TXLOG`. -/
theorem bytes_suffix_append_last {s : State} (hbuf : s.buf = buildFrame s.cmdl) (hidx : s.idx = 8)
    (hlog : CommandPartlySent s) : (buildFrame s.cmdl).bytes <:+ s.txlog ++ [s.buf.get 8] := by
  rw [CommandPartlySent, hidx] at hlog
  rw [hbuf]
  exact take_succ_suffix_append_get hlog

/-- Settles O24: TX_NEXT and TX_LAST; at the ninth byte `BUF` still holds the command frame, whose first eight bytes end
`TXLOG`. -/
theorem acceptedByteIsLoggedAndCounted : Obligations.AcceptedByteIsLoggedAndCounted := by
  intro s rest hin hp
  have hlast (h8 : s.idx = 8) : step s = .next { s with
      inputs := rest, txlog := s.txlog ++ [s.buf.get 8], idx := 0, ph := .awaiting } := by
    rw [step_cons hin, ← h8]
    exact txAccept_last hp h8
  refine ⟨fun hlt => ?_, fun h8 => hlast (Fin.ext h8), fun h8 hinv hlog => ?_⟩
  · rw [step_cons hin]
    exact txAccept_next hp (Fin.ne_of_lt hlt)
  · exact ⟨_, hlast (Fin.ext h8), bytes_suffix_append_last (hinv.sending_frame hp) (Fin.ext h8) (hlog.sending hp)⟩

/-- Settles O25: TX_FAIL does not read `IDX`. -/
theorem writeErrorEndsTheTransaction : Obligations.WriteErrorEndsTheTransaction := by
  intro s rest hin hp
  rw [step_cons hin]
  exact txError_sending hp

/-! ## Awaiting -/

/-- Settles O26: RX_NEXT stores the byte without looking at it. -/
theorem receivedByteIsStoredAtIdx : Obligations.ReceivedByteIsStoredAtIdx := by
  intro s v rest hin hp hlt
  rw [step_cons hin]
  exact rxData_next v hp (Fin.ne_of_lt hlt)

/-- R103, R104: the ninth byte stored decides validity, and `CK` of the first eight does not depend on it. -/
theorem valid_set_last_false_iff (f : Frame) (v : Byte) : valid (f.set 8 v) = false ↔ ck f ≠ v := by
  rw [valid_false_iff, ck_set_last]
  rfl

/-- RX_LAST_BAD (R104). -/
theorem rxData_last_invalid {s : State} {v : Byte} (h : s.ph = .awaiting) (hi : s.idx = 8) (hv : ck s.buf ≠ v) :
    rxData v s = .next { storeByte v s with err := .checksum, ph := .failed } := by
  have hinvalid : valid (storeByte v s).buf = false := by
    rw [storeByte_buf, hi]
    exact (valid_set_last_false_iff s.buf v).mpr hv
  rw [rxData_last v h hi, finishReply_invalid hinvalid]

/-- Settles O28: the frame with the differing ninth byte stored is not valid. -/
theorem differingNinthByteEndsInChecksumError : Obligations.DifferingNinthByteEndsInChecksumError := by
  intro s v rest hin hp h8 hne
  have hidx : s.idx = 8 := Fin.ext h8
  rw [step_cons hin, ← hidx]
  exact rxData_last_invalid hp hidx hne

/-- Settles O29: RX_FAIL does not read `IDX`. -/
theorem readErrorEndsTheTransaction : Obligations.ReadErrorEndsTheTransaction := by
  intro s rest hin hp
  rw [step_cons hin]
  exact rxError_awaiting hp

/-! ## The result -/

/-- The result a failed transaction leaves (R109), by the error kind recorded. -/
def errorResult : ErrKind → Result
  | .none => .noResult
  | .write => .writeError
  | .read => .readError
  | .checksum => .checksumError

theorem result_done {s : State} (h : s.ph = .done) :
    s.result = if s.cmdl = .readCo2 then .okValue (conc s.buf) else .okUnit := by
  simp only [State.result, h]

theorem result_failed {s : State} (h : s.ph = .failed) : s.result = errorResult s.err := by
  unfold State.result
  rw [h]
  cases s.err <;> rfl

theorem result_unfinished {s : State} (h : s.ph = .idle ∨ s.ph = .sending ∨ s.ph = .awaiting) :
    s.result = .noResult := by
  rcases h with h | h | h <;> simp only [State.result, h]

theorem concPort_defined {s : State} (h : s.ph = .done) (hc : s.cmdl = .readCo2) : s.concPort = conc s.buf := by
  simp [State.concPort, State.concDefined, h, hc]

/-- Settles O36: the lines of R109, phase by phase. -/
theorem resultIsTheMappingOfTheState : Obligations.ResultIsTheMappingOfTheState := by
  have hfailed {s : State} {k : ErrKind} (h : s.ph = .failed) (he : s.err = k) : s.result = errorResult k :=
    he ▸ result_failed h
  exact fun s => ⟨fun h hc => ⟨(result_done h).trans (if_pos hc), concPort_defined h hc⟩,
    fun h hc => (result_done h).trans (if_neg hc), hfailed, hfailed, hfailed, result_unfinished⟩

end Sys2Proof.Machine
end

section
/-! PROOFS. The decoder and the encoder (spec/30_encoding.md, R55 to R61): the ten request words, the ten constant frames and
the general command frame are read back as they were written, and nothing else is read. -/

namespace Sys2Proof

open Sys2Proof.Machine

/-! ## The ten commands -/

theorem mem_allCommands (c : Command) : c ∈ allCommands := by
  cases c with
  | readCo2 => decide
  | zeroCal => decide
  | spanCal => decide
  | autoCal a => cases a <;> decide
  | setRange r => cases r <;> decide

/-- A fact about commands is the ten facts. -/
theorem forall_command {P : Command → Prop} (h : ∀ c ∈ allCommands, P c) (c : Command) : P c :=
  h c (mem_allCommands c)

/-! ## The request words -/

theorem decodeReq_encodeReq : ∀ c : Command, decodeReq (encodeReq c) = some c :=
  forall_command (by decide)

/-- R56: `DecodeReq` reads at most one word as each command, by its 64 values. -/
theorem encodeReq_of_decodeReq : ∀ w : BitVec 6, ∀ c ∈ decodeReq w, w = encodeReq c := by decide

/-- Settles O5: a command's own word decodes to it, and no other of the 64 words does. -/
theorem exactlyTenRequestWordsDecode : Obligations.ExactlyTenRequestWordsDecode := by
  intro w c
  constructor
  · exact encodeReq_of_decodeReq w c
  · rintro rfl
    exact decodeReq_encodeReq c

theorem encode_instrOfCommand : ∀ c : Command, encode (instrOfCommand c) = .req (encodeReq c) :=
  forall_command (by decide)

theorem wellFormed_instrOfCommand : ∀ c : Command, wellFormed (instrOfCommand c) = true :=
  forall_command (by decide)

/-! ## The command frames -/

/-- R57, R96: the constant frames of the table are the frames the ten commands build. -/
theorem constantFrames_fst : constantFrames.map Prod.fst = allCommands.map buildFrame := by decide

theorem find?_constantFrames_eq_none (f : Frame) :
    constantFrames.find? (fun row => row.1 = f) = none ↔ f ∉ constantFrames.map Prod.fst := by
  simp only [List.find?_eq_none, List.mem_map, decide_eq_true_eq, not_exists, not_and]

theorem commandOfFrame_eq_none (f : Frame) : commandOfFrame f = none ↔ f ∉ allCommands.map buildFrame := by
  simp [commandOfFrame, List.find?_eq_none]

/-- The decoder and well-formedness leave the same frames to the general row. -/
theorem find?_constantFrames_eq_none_iff (f : Frame) :
    constantFrames.find? (fun row => row.1 = f) = none ↔ commandOfFrame f = none := by
  rw [find?_constantFrames_eq_none, commandOfFrame_eq_none, constantFrames_fst]

theorem decodeTx_of_find?_none {f : Frame} (h : constantFrames.find? (fun row => row.1 = f) = none) :
    decodeTx f = decodeGeneralTx f := by
  simp only [decodeTx, h]

theorem decodeGeneralTx_rawFrame {op : Byte} {p : Payload} {c : Byte} (hop : WellFormed.opcodeOk op = true)
    (hck : WellFormed.checksumOk op p c = true) : decodeGeneralTx (rawFrame op p c) = .ok (.frameTx op p c) := by
  have hop' : ([0x86, 0x87, 0x88, 0x79, 0x99] : List Byte).contains op = true := hop
  have hck' : valid (rawFrame op p c) = true := hck
  simp only [decodeGeneralTx, hck', Bool.not_true]
  simp only [rawFrame, hop']
  rfl

theorem wellFormed_frameTx_iff (op : Byte) (p : Payload) (c : Byte) :
    wellFormed (.frameTx op p c) = true ↔
      WellFormed.opcodeOk op = true ∧ WellFormed.checksumOk op p c = true ∧ commandOfFrame (rawFrame op p c) = none := by
  simp [wellFormed, WellFormed.notConstant, and_assoc]

/-- Settles O6: the twenty rows without operands are read back one by one; a well-formed `FRAME.TX` is none of the constant
frames, so the general row reads its fields; a response is its own operand. -/
theorem decodeOfEncodeIsTheInstruction : Obligations.DecodeOfEncodeIsTheInstruction := by
  intro i hw
  cases i with
  | frameTx op p c =>
    obtain ⟨hop, hck, hnone⟩ := (wellFormed_frameTx_iff op p c).mp hw
    calc decode (encode (.frameTx op p c))
      _ = decodeGeneralTx (rawFrame op p c) := decodeTx_of_find?_none ((find?_constantFrames_eq_none_iff _).mpr hnone)
      _ = .ok (.frameTx op p c) := decodeGeneralTx_rawFrame hop hck
  | frameRx f => rfl
  | _ => decide

/-- Every constant row of the decoder is a row of the encoder. -/
theorem encode_of_mem_constantFrames :
    ∀ row ∈ constantFrames, encode row.2 = .tx row.1 ∧ wellFormed row.2 = true := by decide

/-- The general row drops no byte: two are fixed, seven are operands. -/
theorem encode_of_decodeGeneralTx {f : Frame} {i : Instr} (h : decodeGeneralTx f = .ok i)
    (hnone : constantFrames.find? (fun row => row.1 = f) = none) : encode i = .tx f ∧ wellFormed i = true := by
  obtain ⟨h0, h1, hop, hvalid, rfl⟩ := decodeGeneralTx_ok h
  obtain ⟨f0, f1, f2, f3, f4, f5, f6, f7, f8⟩ := f
  subst h0 h1
  exact ⟨rfl, (wellFormed_frameTx_iff _ _ _).mpr
    ⟨List.contains_iff_mem.mpr hop, hvalid, (find?_constantFrames_eq_none_iff _).mp hnone⟩⟩

/-- Settles O7: by the stream the packet stands on and, on the TX stream, by the row that reads the frame. -/
theorem encodeOfDecodeIsThePacket : Obligations.EncodeOfDecodeIsThePacket := by
  intro p i h
  cases p with
  | req w =>
    cases hw : decodeReq w with
    | none => simp [decode, hw] at h
    | some c =>
      obtain rfl : instrOfCommand c = i := by simpa [decode, hw] using h
      rw [encode_instrOfCommand, encodeReq_of_decodeReq w c hw]
      exact ⟨rfl, wellFormed_instrOfCommand c⟩
  | tx f =>
    rcases decodeTx_ok h with hrow | ⟨hnone, hgen⟩
    · exact encode_of_mem_constantFrames (f, i) hrow
    · exact encode_of_decodeGeneralTx hgen hnone
  | rx f =>
    cases h
    exact ⟨rfl, rfl⟩

/-- Settles O4: the words of the table rows, evaluated. -/
theorem sampleWordsDecodeToTheirRows : Obligations.SampleWordsDecodeToTheirRows := by
  unfold Obligations.SampleWordsDecodeToTheirRows
  decide

/-! ## From a word to a step -/

namespace Machine

theorem runPacket_of_decode {p : Packet} {i : Instr} (h : decode p = .ok i) (s : State) : runPacket p s = exec i s := by
  simp only [runPacket, h]

theorem step_present {s : State} {p : Packet} {rest : List Input} {i : Instr} (hin : s.inputs = .present p :: rest)
    (hd : decode p = .ok i) : step s = exec i { s with inputs := rest } := by
  rw [step_cons hin]
  exact runPacket_of_decode hd _

theorem placePacket_inputs (p : Packet) (s : State) : (placePacket p s).inputs = .present p :: s.inputs := by
  cases p <;> rfl

/-- A table word that reads as `i` stands for a packet that decodes to `i`, and `withFetchWord` places that packet. -/
theorem withFetchWord_of_decodeTableWord {nbits w : Nat} {i : Instr} (h : decodeTableWord nbits w = some i) (s : State) :
    ∃ p, s.withFetchWord nbits w = placePacket p s ∧ decode p = .ok i := by
  unfold decodeTableWord at h
  cases hp : tablePacket nbits w with
  | none => simp [hp] at h
  | some p =>
    cases hd : decode p with
    | error r => simp [hp, hd] at h
    | ok j =>
      obtain rfl : j = i := by simpa [hp, hd] using h
      exact ⟨p, by simp only [State.withFetchWord, placeWord, hp], hd⟩

/-- Settles O3: a step takes the packet and runs what it decodes to; `withFetchWord` puts the word's packet in front. -/
theorem stepRunsTheDecodedInstruction : Obligations.StepRunsTheDecodedInstruction := by
  refine ⟨fun s p rest i => step_present, fun s nbits w i h => ?_⟩
  obtain ⟨p, hplace, hd⟩ := withFetchWord_of_decodeTableWord h s
  rw [hplace]
  exact step_present (placePacket_inputs p s) hd

end Machine

end Sys2Proof
end

section
/-! PROOFS. Validity as a sum of nine bytes (spec/40_checksum.md, R68, R69), the concentration field (R79) and the frames of
the ten commands (spec/42_command_mux.md). -/

namespace Sys2Proof.Machine

/-! ## Validity -/

/-- Settles O9: `f[8]` is 255 less the sum of the others mod 256. -/
theorem validMeansNineBytesSumTo255 : Obligations.ValidMeansNineBytesSumTo255 := by
  intro f
  have hlt := f.f8.isLt
  rw [valid_iff_toNat, Frame.bytes_eq_summed, List.map_append, List.sum_append, List.map_singleton, List.sum_singleton]
  omega

/-- Settles O11: a permutation keeps the sum of the nine bytes, and validity is that sum. -/
theorem reorderedBytesAreNotDetected : Obligations.ReorderedBytesAreNotDetected := by
  intro f g h
  have hsum : (g.bytes.map BitVec.toNat).sum = (f.bytes.map BitVec.toNat).sum := (h.map _).sum_eq
  rw [Bool.eq_iff_iff, validMeansNineBytesSumTo255 g, validMeansNineBytesSumTo255 f, hsum]

/-! ## The concentration -/

/-- R34: the two bytes stand side by side, the high one first. -/
theorem conc_eq_append (f : Frame) : conc f = f.f2 ++ f.f3 := by
  rw [BitVec.append_def, BitVec.shiftLeftZeroExtend_eq, BitVec.setWidth'_eq]
  rfl

/-- Settles O15: the high byte weighs 256. -/
theorem concentrationIsBytesTwoAndThree : Obligations.ConcentrationIsBytesTwoAndThree := by
  intro f
  rw [conc_eq_append, BitVec.toNat_append, ← Nat.shiftLeft_add_eq_or_of_lt f.f3.isLt, Nat.shiftLeft_eq]

/-! ## The frames of the commands -/

/-- Settles O16: `Mux`, the request word and the frame of the five commands, evaluated. -/
theorem sourceCommandsHaveTheirFrames : Obligations.SourceCommandsHaveTheirFrames := by
  unfold Obligations.SourceCommandsHaveTheirFrames
  decide

/-- Settles O17: the same for the commands the spec completes. -/
theorem completedCommandsHaveTheirFrames : Obligations.CompletedCommandsHaveTheirFrames := by
  unfold Obligations.CompletedCommandsHaveTheirFrames
  decide

/-- `Mux` gives one of the five opcodes (R51, R59). -/
theorem mux_opcode_mem : ∀ c : Command, (mux c).1 ∈ ([0x86, 0x87, 0x88, 0x79, 0x99] : List Byte) :=
  forall_command (by decide)

/-- A command is found again from its frame (R96). -/
theorem commandOfFrame_buildFrame : ∀ c : Command, commandOfFrame (buildFrame c) = some c :=
  forall_command (by decide)

/-- Settles O18: header, opcode and payload by the encoder, the checksum because the frame is valid, and injectivity because
the command is found again from the frame. -/
theorem commandFramesAreWellMadeAndDistinct : Obligations.CommandFramesAreWellMadeAndDistinct := by
  constructor
  · exact fun c => ⟨rfl, rfl, mux_opcode_mem c, rfl, ((valid_iff _).mp (valid_buildFrame c)).symm⟩
  · intro c d h
    have hfound : some c = some d := by rw [← commandOfFrame_buildFrame c, h, commandOfFrame_buildFrame d]
    exact Option.some.inj hfound

end Sys2Proof.Machine
end

section
/-! PROOFS. The ten requests at rest and while busy (R98, R107, R108). -/

namespace Sys2Proof.Machine

open Sys2Proof.Safety

theorem ready_of_atRest {s : State} (h : AtRest s) : s.ready = true := (ready_iff s).mpr h

theorem not_ready_of_busy {s : State} (h : Busy s) : s.ready = false := (not_ready_iff s).mpr h

/-- ACCEPT (R98). -/
theorem accept_atRest {s : State} (h : AtRest s) (c : Command) :
    accept c s = .next { s with cmdl := c, buf := buildFrame c, idx := 0, err := .none, ph := .sending } :=
  accept_ready c (ready_of_atRest h)

/-- Settles O19: ACCEPT with the frames of the three commands. -/
theorem readAndCalibrationRequestsStart : Obligations.ReadAndCalibrationRequestsStart :=
  fun _ h => ⟨accept_atRest h _, accept_atRest h _, accept_atRest h _⟩

/-- Settles O20: ACCEPT with the frames of the two commands. -/
theorem autoCalRequestsStart : Obligations.AutoCalRequestsStart :=
  fun _ h => ⟨accept_atRest h _, accept_atRest h _⟩

/-- Settles O21: ACCEPT with the frames of the five commands. -/
theorem setRangeRequestsStart : Obligations.SetRangeRequestsStart :=
  fun _ h => ⟨accept_atRest h _, accept_atRest h _, accept_atRest h _, accept_atRest h _, accept_atRest h _⟩

/-- Settles O22: each of the ten is the request of a command, and a busy block accepts none. -/
theorem busyBlockIgnoresEveryRequest : Obligations.BusyBlockIgnoresEveryRequest := by
  intro s i hbusy hi
  obtain ⟨c, -, rfl⟩ : ∃ c ∈ allCommands, instrOfCommand c = i := List.mem_map.mp hi
  rw [exec_instrOfCommand, accept_busy c (not_ready_of_busy hbusy)]

theorem encodeReq_mem (c : Command) :
    encodeReq c ∈ ([0x00, 0x08, 0x10, 0x18, 0x19, 0x20, 0x21, 0x22, 0x23, 0x24] : List (BitVec 6)) :=
  List.mem_map_of_mem (f := encodeReq) (mem_allCommands c)

/-- R58: a word that is none of the ten is reserved. -/
theorem decodeReq_eq_none {w : BitVec 6}
    (h : w ∉ ([0x00, 0x08, 0x10, 0x18, 0x19, 0x20, 0x21, 0x22, 0x23, 0x24] : List (BitVec 6))) : decodeReq w = none := by
  rw [Option.eq_none_iff_forall_ne_some]
  intro c hc
  rw [encodeReq_of_decodeReq w c hc] at h
  exact h (encodeReq_mem c)

/-- Settles O23: the decoder gives no command, so only the input is taken. -/
theorem reservedRequestChangesNothing : Obligations.ReservedRequestChangesNothing := by
  intro s w rest hin hw
  rw [step_cons hin, react, runPacket_req, decodeReq_eq_none hw]

end Sys2Proof.Machine
end

section
/-! PROOFS. Reset, waiting and the steps without an answer (R23, R106, R135, R136), and the ninth byte that matches (R103). -/

namespace Sys2Proof.Machine

open Sys2Proof.Safety

/-- Settles O1: the fields of the reset state. -/
theorem resetStateIsIdleAndEmpty : Obligations.ResetStateIsIdleAndEmpty :=
  ⟨rfl, rfl, rfl, rfl, rfl, rfl, rfl⟩

theorem step_reset {s : State} {rest : List Input} (hin : s.inputs = .reset :: rest) :
    step s = .next (resetBlock { s with inputs := rest }) :=
  step_cons hin

/-- Settles O2: reset reads nothing of the block. -/
theorem resetWorksInEveryState : Obligations.ResetWorksInEveryState :=
  fun _ _ hin => ⟨_, step_reset hin, rfl, rfl, rfl, rfl, rfl, rfl, rfl, rfl, rfl, rfl⟩

theorem valid_set_last_iff (f : Frame) (v : Byte) : valid (f.set 8 v) = true ↔ ck f = v := by
  rw [valid_iff, ck_set_last]
  rfl

/-- RX_LAST_OK (R103). -/
theorem rxData_last_valid {s : State} {v : Byte} (h : s.ph = .awaiting) (hi : s.idx = 8) (hv : ck s.buf = v) :
    rxData v s = .next { storeByte v s with ph := .done } := by
  have hvalid : valid (storeByte v s).buf = true := by
    rw [storeByte_buf, hi]
    exact (valid_set_last_iff s.buf v).mpr hv
  rw [rxData_last v h hi, finishReply_valid hvalid]

/-- Settles O27: the frame with the matching ninth byte stored is valid. -/
theorem matchingNinthByteEndsInDone : Obligations.MatchingNinthByteEndsInDone := by
  intro s v rest hin hp h8 hck
  have hidx : s.idx = 8 := Fin.ext h8
  rw [step_cons hin, ← hidx]
  exact rxData_last_valid hp hidx hck

/-- Settles O30: a quiet turn only takes its input; with no input left a block that is not ready is held. -/
theorem unansweredBlockIsHeld : Obligations.UnansweredBlockIsHeld := by
  intro s hbusy
  refine ⟨fun rest hin => step_cons hin, fun hin => ?_⟩
  simp [step_nil hin, noInput, not_ready_of_busy hbusy]

/-- Settles O31: each of the four answers needs its phase. -/
theorem answerWithoutPendingAccessIsNoEvent : Obligations.AnswerWithoutPendingAccessIsNoEvent := by
  intro s i rest hin
  rw [step_cons hin]
  constructor
  · rintro (rfl | rfl) hp
    · exact txAccept_unasked hp
    · exact txError_unasked hp
  · rintro (rfl | ⟨v, rfl⟩) hp
    · exact rxError_unasked hp
    · exact rxData_unasked v hp

end Sys2Proof.Machine
end

section
/-! PROOFS. The frame rows (R43, R73, R76, logs 9 and 10): each TX row sends the frame it encodes to, FRAME.RX fills the reply,
and both are the byte steps of 9 - IDX bytes. -/

namespace Sys2Proof.Machine

open Sys2Proof.Safety

/-! ## The rows -/

/-- Every TX row runs as the sending of the frame that encodes it; its operands need no well-formedness. -/
theorem exec_of_encode_tx {i : Instr} {f : Frame} (h : encode i = .tx f) (s : State) : exec i s = sendFrame f s := by
  cases i <;> cases h <;> rfl

/-- Settles O32: the row is the sending of a frame the block offers. -/
theorem offeredCommandFrameGoesOut : Obligations.OfferedCommandFrameGoesOut := by
  intro i f s hi hp hb
  rw [exec_of_encode_tx hi, sendFrame_offered hp hb]

/-- Settles O33: the row is the sending of a frame the block does not offer. -/
theorem unofferedCommandFrameIsNotSent : Obligations.UnofferedCommandFrameIsNotSent := by
  intro i f s hi hno
  rw [exec_of_encode_tx hi, sendFrame_not_offered hno]

/-- Settles O34: `BUF` ends as the one frame with these nine bytes, whose checksum decides. -/
theorem arrivingFrameFillsTheReply : Obligations.ArrivingFrameFillsTheReply := by
  refine ⟨fun f b s hp hb => ?_, fun f s hp => receiveFrame_unasked f hp⟩
  calc exec (.frameRx f) s
    _ = .next (finishReply { s with
          buf := mergeReply s.idx s.buf f, rxlog := s.rxlog ++ f.bytes.take (9 - s.idx), idx := 8 }) :=
        receiveFrame_awaiting f hp
    _ = _ := by
        rw [mergeReply_of_bytes hb, finishReply_eq]
        simp only [valid_iff]

/-! ## Byte by byte -/

theorem val_add_one_of_ne_last {k : Fin 9} (h : k ≠ 8) : (k + 1).val = k.val + 1 :=
  Fin.val_add_one_of_lt (Fin.lt_last_iff_ne_last.mpr h)

/-- The byte offered at an index is the first of those still to go. -/
theorem drop_eq_get_cons (f : Frame) (k : Fin 9) : f.bytes.drop k = f.get k :: f.bytes.drop (k.val + 1) := by
  fin_cases k <;> rfl

/-- A run whose next input is an accepted byte that is not the last (R99). -/
theorem runSteps_txNext (n : Nat) {s : State} (is : List Input) (hp : s.ph = .sending) (h8 : s.idx ≠ 8) :
    runSteps (n + 1) { s with inputs := .txAccept :: is } =
      runSteps n { s with inputs := is, txlog := s.txlog ++ [s.buf.get s.idx], idx := s.idx + 1 } :=
  runSteps_next n (txAccept_next (s := { s with inputs := is }) hp h8)

/-- A run whose next input is a delivered byte that is not the last (R102). -/
theorem runSteps_rxNext (n : Nat) {s : State} (v : Byte) (is : List Input) (hp : s.ph = .awaiting) (h8 : s.idx ≠ 8) :
    runSteps (n + 1) { s with inputs := .rxData v :: is } =
      runSteps n { storeByte v s with inputs := is, idx := s.idx + 1 } :=
  runSteps_next n (rxData_next (s := { s with inputs := is }) v hp h8)

/-- R99, R100: as many accepted bytes as the frame still has complete it. -/
theorem runSteps_txAccept (n : Nat) {s : State} (rest : List Input) (hp : s.ph = .sending) (hn : n + s.idx.val = 9) :
    runSteps n { s with inputs := List.replicate n .txAccept ++ rest } =
      .next { s with inputs := rest, txlog := s.txlog ++ s.buf.bytes.drop s.idx, idx := 0, ph := .awaiting } := by
  induction n generalizing s with
  | zero => omega
  | succ n ih =>
    by_cases h8 : s.idx = 8
    · obtain rfl : n = 0 := by simpa [h8] using hn
      have hdrop : s.buf.bytes.drop s.idx = [s.buf.get s.idx] := by rw [h8]; rfl
      rw [hdrop]
      exact runSteps_next 0 (txAccept_last (s := { s with inputs := rest }) hp h8)
    · have hidx := val_add_one_of_ne_last h8
      rw [drop_eq_get_cons, List.append_cons, ← hidx]
      refine (runSteps_txNext n _ hp h8).trans
        (ih (s := { s with txlog := s.txlog ++ [s.buf.get s.idx], idx := s.idx + 1 }) hp ?_)
      simp only [hidx]
      omega

/-- R102 to R104: delivered bytes, as long as the block asks for them. -/
theorem runSteps_rxData (bs : List Byte) {s : State} (rest : List Input) (hp : s.ph = .awaiting)
    (hlen : bs.length + s.idx.val ≤ 9) :
    runSteps bs.length { s with inputs := bs.map .rxData ++ rest } = deliver bs { s with inputs := rest } := by
  induction bs generalizing s with
  | nil => rfl
  | cons v vs ih =>
    by_cases h8 : s.idx = 8
    · obtain rfl : vs = [] := by simpa [h8] using hlen
      rw [deliver_last v [] (by exact hp) (by exact h8)]
      exact runSteps_next 0 (rxData_last v hp h8)
    · have hidx := val_add_one_of_ne_last h8
      rw [deliver_next v vs (by exact hp) (by exact h8)]
      refine (runSteps_rxNext vs.length v _ hp h8).trans
        (ih (s := { storeByte v s with idx := s.idx + 1 }) hp ?_)
      simp only [List.length_cons] at hlen
      simp only [hidx]
      omega

/-- R39: the bytes past the ninth stay with TRANSPORT. -/
theorem deliver_take (bs : List Byte) {s : State} (hp : s.ph = .awaiting) :
    deliver (bs.take (9 - s.idx)) s = deliver bs s := by
  induction bs generalizing s with
  | nil => simp
  | cons v vs ih =>
    by_cases h8 : s.idx = 8
    · rw [deliver_last v vs hp h8, h8]
      exact deliver_last v [] hp h8
    · have hidx := val_add_one_of_ne_last h8
      have hsub : 9 - s.idx.val = (9 - (s.idx + 1).val) + 1 := by omega
      rw [hsub, List.take_succ_cons, deliver_next v _ hp h8, deliver_next v vs hp h8]
      exact ih (s := { storeByte v s with idx := s.idx + 1 }) hp

/-- Settles O35: the accepted bytes are those still to go, the delivered ones those still missing. -/
theorem wholeFramesAreTheirByteSteps : Obligations.WholeFramesAreTheirByteSteps := by
  constructor
  · intro i f s rest hi hp hb
    rw [exec_of_encode_tx hi, sendFrame_offered (by exact hp) (by exact hb), ← hb]
    exact runSteps_txAccept (9 - s.idx) rest hp (by omega)
  · intro f s rest hp
    have hlen : (f.bytes.take (9 - s.idx)).length = 9 - s.idx.val := by simp [Config.frameLen]
    have hrun := runSteps_rxData (f.bytes.take (9 - s.idx)) rest hp (by omega)
    rw [hlen] at hrun
    exact hrun.trans (deliver_take (s := { s with inputs := rest }) f.bytes hp)

end Sys2Proof.Machine
end

section
/-! PROOFS. What a step can do to the block (R9, R41): the moves of the machine, told apart by their effect on the six elements
alone. The rules of the whole machine read off it which move wrote an element. -/

namespace Sys2Proof.Machine

open Sys2Proof.Safety

/-- The nine effects of a step on the block; a whole frame has the effect of its last byte step, with more bytes. -/
inductive BlockChange (s : State) : State → Prop where
  | unchanged (rest : List Input) (seen : List PortSample) (n : Nat) :
      BlockChange s { s with inputs := rest, hostSeen := seen, draws := n }
  | accepted (c : Command) (rest : List Input) (hreq : AcceptsNext c s) :
      BlockChange s (startTransaction c { s with inputs := rest })
  | reset (rest : List Input) (hin : s.inputs = .reset :: rest) : BlockChange s (resetBlock { s with inputs := rest })
  | sentByte (rest : List Input) (hin : s.inputs = .txAccept :: rest) (hp : s.ph = .sending) (h8 : s.idx ≠ 8) :
      BlockChange s { s with inputs := rest, txlog := s.txlog ++ [s.buf.get s.idx], idx := s.idx + 1 }
  | sentRest (i : Input) (rest : List Input) (hin : s.inputs = i :: rest) (hi : IsTransport i) (hp : s.ph = .sending) :
      BlockChange s { s with inputs := rest, txlog := s.txlog ++ s.buf.bytes.drop s.idx, idx := 0, ph := .awaiting }
  | writeFailed (rest : List Input) (hin : s.inputs = .txError :: rest) (hp : s.ph = .sending) :
      BlockChange s (raiseError .write { s with inputs := rest })
  | receivedByte (v : Byte) (rest : List Input) (hin : s.inputs = .rxData v :: rest) (hp : s.ph = .awaiting)
      (h8 : s.idx ≠ 8) :
      BlockChange s { s with inputs := rest, buf := s.buf.set s.idx v, rxlog := s.rxlog ++ [v], idx := s.idx + 1 }
  | receivedRest (i : Input) (rest : List Input) (b : Frame) (bs : List Byte) (hin : s.inputs = i :: rest)
      (hi : IsDelivery i) (hp : s.ph = .awaiting) (hb : b.bytes = s.buf.bytes.take s.idx ++ bs) :
      BlockChange s (finishReply { s with inputs := rest, buf := b, rxlog := s.rxlog ++ bs, idx := 8 })
  | readFailed (rest : List Input) (hin : s.inputs = .rxError :: rest) (hp : s.ph = .awaiting) :
      BlockChange s (raiseError .read { s with inputs := rest })

theorem acceptsNext_of_decodeReq {s : State} {w : BitVec 6} {c : Command} {rest : List Input}
    (hin : s.inputs = .present (.req w) :: rest) (hw : decodeReq w = some c) (hr : s.ready = true) : AcceptsNext c s := by
  rw [encodeReq_of_decodeReq w c hw] at hin
  exact ⟨hr, by rw [hin]; rfl⟩

theorem blockChange_of_stepMove {s t : State} (h : StepMove s t) : BlockChange s t := by
  cases h with
  | waits => exact .unchanged s.inputs s.hostSeen s.draws
  | quiet rest => exact .unchanged rest s.hostSeen s.draws
  | reserved _ rest => exact .unchanged rest s.hostSeen s.draws
  | turnedAway _ _ rest => exact .unchanged rest s.hostSeen s.draws
  | frameUnasked _ rest => exact .unchanged rest s.hostSeen s.draws
  | samples rest => exact .unchanged rest _ _
  | accepts w c rest hin hw hr => exact .accepted c rest (acceptsNext_of_decodeReq hin hw hr)
  | resets rest hin => exact .reset rest hin
  | txNext rest hin hp h8 => exact .sentByte rest hin hp h8
  | txLast rest hin hp h8 =>
    have hdrop : s.buf.bytes.drop s.idx = [s.buf.get s.idx] := by rw [h8]; rfl
    rw [← hdrop]
    exact .sentRest .txAccept rest hin trivial hp
  | frameOut f rest hin hp hb =>
    rw [← hb]
    exact .sentRest (.present (.tx f)) rest hin trivial hp
  | txFails rest hin hp => exact .writeFailed rest hin hp
  | rxNext v rest hin hp h8 => exact .receivedByte v rest hin hp h8
  | rxLast v rest hin hp h8 =>
    have hb : (s.buf.set s.idx v).bytes = s.buf.bytes.take s.idx ++ [v] := by
      rw [← Frame.take_succ_set, h8]
      rfl
    have hchange := BlockChange.receivedRest (.rxData v) rest _ [v] hin trivial hp hb
    rw [← h8] at hchange
    exact hchange
  | frameIn f rest hin hp =>
    exact .receivedRest (.present (.rx f)) rest _ _ hin trivial hp (mergeReply_bytes s.idx s.buf f)
  | rxFails rest hin hp => exact .readFailed rest hin hp

theorem blockChange_of_step {s t : State} (h : step s = .next t) : BlockChange s t :=
  blockChange_of_stepMove (stepMove_of_step h)

theorem isTransport_of_isDelivery {i : Input} (h : IsDelivery i) : IsTransport i := by
  match i, h with
  | .present (.rx _), _ => trivial
  | .rxData _, _ => trivial

theorem head?_eq_of_inputs {s : State} {i : Input} {rest : List Input} (h : s.inputs = i :: rest) :
    s.inputs.head? = some i := by
  rw [h]
  rfl

theorem finishReply_err (s : State) :
    (finishReply s).err = s.err ∨ (finishReply s).err = .checksum ∧ valid s.buf = false := by
  cases h : valid s.buf with
  | true => exact .inl (by rw [finishReply_valid h])
  | false => exact .inr ⟨by rw [finishReply_invalid h], rfl⟩

theorem take_of_bytes_eq {f b : Frame} {k : Fin 9} {bs : List Byte} (h : b.bytes = f.bytes.take k ++ bs) :
    b.bytes.take k = f.bytes.take k := by
  rw [h]
  exact List.take_left' (by simp [Config.frameLen])

theorem length_of_bytes_eq {f b : Frame} {k : Fin 9} {bs : List Byte} (h : b.bytes = f.bytes.take k ++ bs) :
    bs.length = 9 - k.val := by
  have hlen := congrArg List.length h
  simp only [List.length_append, List.length_take, Frame.bytes_length, Config.frameLen] at hlen
  omega

/-! ## Rules of the whole machine -/

/-- Settles O37: `samplePorts` records the ports and counts a draw where `CONC` is not defined. -/
theorem samplingShowsThePortsAndChangesNothing : Obligations.SamplingShowsThePortsAndChangesNothing := by
  intro s rest hin
  have hdef : s.concDefined = true ↔ s.ph = .done ∧ s.cmdl = .readCo2 := by simp [State.concDefined]
  refine ⟨samplePorts { s with inputs := rest }, s.ports, step_cons hin, ⟨rfl, rfl, rfl, rfl, rfl, rfl, rfl⟩, rfl, rfl,
    ready_iff s, ?_, ?_, rfl, fun h => ⟨concPort_defined h.1 h.2, if_pos (hdef.mpr h)⟩, fun h => if_neg (mt hdef.mp h)⟩
  · unfold State.ports
    cases s.ph <;> rfl
  · unfold State.ports
    cases s.err <;> rfl

/-- Settles O38: an effect on a busy block is TRANSPORT's or reset's; acceptance needs a block at rest. -/
theorem onlyTransportOrResetMovesABusyBlock : Obligations.OnlyTransportOrResetMovesABusyBlock := by
  intro s t hbusy hstep hmoved
  cases blockChange_of_step hstep with
  | unchanged => exact absurd ⟨rfl, rfl, rfl, rfl, rfl, rfl, rfl⟩ hmoved
  | accepted c rest hreq => exact absurd hreq.1 (by simp [not_ready_of_busy hbusy])
  | reset rest hin => exact ⟨_, rest, hin, .inr rfl⟩
  | sentByte rest hin => exact ⟨_, rest, hin, .inl trivial⟩
  | sentRest i rest hin hi => exact ⟨i, rest, hin, .inl hi⟩
  | writeFailed rest hin => exact ⟨_, rest, hin, .inl trivial⟩
  | receivedByte v rest hin => exact ⟨_, rest, hin, .inl trivial⟩
  | receivedRest i rest _ _ hin hi => exact ⟨i, rest, hin, .inl (isTransport_of_isDelivery hi)⟩
  | readFailed rest hin => exact ⟨_, rest, hin, .inl trivial⟩

/-- Settles O39: the byte steps need a busy block, so what is neither acceptance nor reset changes nothing. -/
theorem resultStaysUntilTheNextAcceptance : Obligations.ResultStaysUntilTheNextAcceptance := by
  intro s t hend hstep hno hnoreset
  have hrest : s.ready = true := (ready_iff s).mpr (.inr hend)
  have hidle : s.ph ≠ .sending ∧ s.ph ≠ .awaiting := by rcases hend with h | h <;> simp [h]
  cases blockChange_of_step hstep with
  | unchanged => exact ⟨⟨rfl, rfl, rfl, rfl, rfl, rfl, rfl⟩, rfl, hrest⟩
  | accepted c rest hreq => exact absurd hreq (hno c)
  | reset rest hin => exact absurd (head?_eq_of_inputs hin) hnoreset
  | sentByte _ _ hp => exact absurd hp hidle.1
  | sentRest _ _ _ _ hp => exact absurd hp hidle.1
  | writeFailed _ _ hp => exact absurd hp hidle.1
  | receivedByte _ _ _ hp => exact absurd hp hidle.2
  | receivedRest _ _ _ _ _ _ hp => exact absurd hp hidle.2
  | readFailed _ _ hp => exact absurd hp hidle.2

/-- Settles O40: no byte step writes `CMDL`. -/
theorem commandIsLatchedOnlyAtAcceptance : Obligations.CommandIsLatchedOnlyAtAcceptance := by
  intro s t hstep hne
  cases blockChange_of_step hstep with
  | accepted c rest hreq => exact .inl hreq
  | reset rest hin => exact .inr (head?_eq_of_inputs hin)
  | receivedRest => exact absurd (finishReply_cmdl _) hne
  | _ => exact absurd rfl hne

/-- Settles O41: acceptance and reset clear `ERR`, and each failing step writes its own kind. -/
theorem errorKindIsWrittenOnlyByItsOwnStep : Obligations.ErrorKindIsWrittenOnlyByItsOwnStep := by
  intro s t hstep hne
  cases blockChange_of_step hstep with
  | accepted c rest hreq => exact .inl ⟨rfl, .inl ⟨c, hreq⟩⟩
  | reset rest hin => exact .inl ⟨rfl, .inr (head?_eq_of_inputs hin)⟩
  | writeFailed rest hin hp => exact .inr (.inl ⟨rfl, hp, head?_eq_of_inputs hin⟩)
  | readFailed rest hin hp => exact .inr (.inr (.inl ⟨rfl, hp, head?_eq_of_inputs hin⟩))
  | receivedRest i rest b bs hin hi hp hb =>
    obtain ⟨herr, hvalid⟩ := (finishReply_err _).resolve_left hne
    exact .inr (.inr (.inr ⟨herr, hp, by rwa [finishReply_buf], i, head?_eq_of_inputs hin, hi⟩))
  | _ => exact absurd rfl hne

/-- Settles O42: the receive steps keep the bytes below `IDX`. -/
theorem bufferIsWrittenOnlyByAcceptanceAndReception : Obligations.BufferIsWrittenOnlyByAcceptanceAndReception := by
  intro s t hstep hne
  cases blockChange_of_step hstep with
  | accepted c rest hreq => exact .inl ⟨c, hreq, rfl⟩
  | reset rest hin => exact .inr (.inl (head?_eq_of_inputs hin))
  | receivedByte v rest hin hp =>
    exact .inr (.inr ⟨hp, ⟨_, head?_eq_of_inputs hin, trivial⟩, Frame.take_set s.buf s.idx v⟩)
  | receivedRest i rest b bs hin hi hp hb =>
    exact .inr (.inr ⟨hp, ⟨i, head?_eq_of_inputs hin, hi⟩, by rw [finishReply_buf]; exact take_of_bytes_eq hb⟩)
  | _ => exact absurd rfl hne

/-- Settles O43: the send steps append bytes of `BUF` from `IDX` on, the receive steps the bytes they store. -/
theorem logsGrowOnlyInTheirOwnPhase : Obligations.LogsGrowOnlyInTheirOwnPhase := by
  intro s t hstep hnoreset
  cases blockChange_of_step hstep with
  | reset rest hin => exact absurd (head?_eq_of_inputs hin) hnoreset
  | sentByte rest hin hp h8 =>
    refine ⟨.inr ⟨hp, rfl, 1, one_pos, ?_⟩, .inl rfl⟩
    rw [drop_eq_get_cons, List.take_succ_cons, List.take_zero]
  | sentRest i rest hin hi hp =>
    refine ⟨.inr ⟨hp, rfl, 9, by omega, ?_⟩, .inl rfl⟩
    rw [List.take_of_length_le (by simp [Config.frameLen])]
  | receivedByte v rest hin hp h8 =>
    refine ⟨.inl rfl, .inr ⟨hp, rfl, [v], List.cons_ne_nil v [], ?_, rfl, ?_⟩⟩
    · simp only [List.length_singleton]
      omega
    · rw [← Frame.take_succ_set]
      exact List.take_prefix _ _
  | receivedRest i rest b bs hin hi hp hb =>
    have hlen := length_of_bytes_eq hb
    refine ⟨.inl (finishReply_txlog _), .inr ⟨hp, finishReply_txlog _, bs, ?_, hlen.le, finishReply_rxlog _, ?_⟩⟩
    · rintro rfl
      simp only [List.length_nil] at hlen
      omega
    · rw [finishReply_buf, ← hb]
  | _ => exact ⟨.inl rfl, .inl rfl⟩

end Sys2Proof.Machine
end

section
/-! PROOFS. The two invariants (R14, R24, R13, R100, R118 to R120): what each says in one phase, and why every effect of a step
keeps it. -/

namespace Sys2Proof.Machine

open Sys2Proof.Safety

/-! ## The state invariant, phase by phase -/

theorem inv_sending_iff {s : State} (h : s.ph = .sending) : Inv s ↔ s.err = .none ∧ s.buf = buildFrame s.cmdl :=
  ⟨fun hinv => ⟨hinv.running_clear (.inl h), hinv.sending_frame h⟩,
    fun ⟨herr, hbuf⟩ => by constructor <;> simp [h, herr, hbuf]⟩

theorem inv_awaiting_iff {s : State} (h : s.ph = .awaiting) : Inv s ↔ s.err = .none :=
  ⟨fun hinv => hinv.running_clear (.inr (.inl h)), fun herr => by constructor <;> simp [h, herr]⟩

theorem inv_done_iff {s : State} (h : s.ph = .done) : Inv s ↔ s.err = .none ∧ valid s.buf = true ∧ s.idx = 8 :=
  ⟨fun hinv => ⟨hinv.running_clear (.inr (.inr h)), hinv.done_valid h⟩,
    fun ⟨herr, hvalid, hidx⟩ => by constructor <;> simp [h, herr, hvalid, hidx]⟩

theorem inv_failed_iff {s : State} (h : s.ph = .failed) :
    Inv s ↔ s.err ≠ .none ∧ (s.err = .checksum → valid s.buf = false ∧ s.idx = 8) :=
  ⟨fun hinv => ⟨hinv.failed_iff.mp h, hinv.checksum_invalid h⟩,
    fun ⟨herr, hck⟩ => ⟨by simp [h], by simp [h], by simp [h, herr], by simp [h], by simp [h], fun _ => hck⟩⟩

/-- The end of a reply decides between the two states in which `BUF` holds nine bytes (R24 (g), (h)). -/
theorem inv_finishReply {s : State} (herr : s.err = .none) (hidx : s.idx = 8) : Inv (finishReply s) := by
  cases h : valid s.buf with
  | true =>
    rw [finishReply_valid h]
    exact (inv_done_iff rfl).mpr ⟨herr, h, hidx⟩
  | false =>
    rw [finishReply_invalid h]
    exact (inv_failed_iff rfl).mpr ⟨nofun, fun _ => ⟨h, hidx⟩⟩

/-- Settles O45: by the effect of the step; the byte steps start in a phase without an error. -/
theorem everyStepKeepsTheStateInvariant : Obligations.EveryStepKeepsTheStateInvariant := by
  intro s t hinv hstep
  cases blockChange_of_step hstep with
  | unchanged =>
    exact ⟨hinv.idle_clear, hinv.running_clear, hinv.failed_iff, hinv.sending_frame, hinv.done_valid,
      hinv.checksum_invalid⟩
  | accepted => exact (inv_sending_iff rfl).mpr ⟨rfl, rfl⟩
  | reset => constructor <;> simp
  | sentByte _ _ hp => exact (inv_sending_iff (by exact hp)).mpr ((inv_sending_iff hp).mp hinv)
  | sentRest _ _ _ _ hp => exact (inv_awaiting_iff rfl).mpr (hinv.running_clear (.inl hp))
  | writeFailed => exact (inv_failed_iff rfl).mpr ⟨nofun, nofun⟩
  | receivedByte _ _ _ hp => exact (inv_awaiting_iff (by exact hp)).mpr ((inv_awaiting_iff hp).mp hinv)
  | receivedRest _ _ _ _ _ _ hp => exact inv_finishReply ((inv_awaiting_iff hp).mp hinv) rfl
  | readFailed => exact (inv_failed_iff rfl).mpr ⟨nofun, nofun⟩

/-! ## The log invariant, phase by phase -/

theorem logInv_idle {s : State} (h : s.ph = .idle) : LogInv s := by
  constructor <;> simp [h]

theorem logInv_sending_iff {s : State} (h : s.ph = .sending) : LogInv s ↔ CommandPartlySent s :=
  ⟨fun hlog => hlog.sending h, fun hsent => by constructor <;> simp [h, hsent]⟩

theorem logInv_awaiting_iff {s : State} (h : s.ph = .awaiting) :
    LogInv s ↔ CommandSent s ∧ s.buf.bytes.take s.idx <:+ s.rxlog :=
  ⟨fun hlog => hlog.awaiting h, fun hreply => by constructor <;> simp [h, hreply]⟩

theorem logInv_done {s : State} (h : s.ph = .done) (hlog : CommandSent s ∧ s.buf.bytes <:+ s.rxlog) : LogInv s := by
  constructor <;> simp [h, hlog]

theorem logInv_write_failed {s : State} (h : s.ph = .failed) (herr : s.err = .write) (hlog : CommandPartlySent s) :
    LogInv s := by
  constructor <;> simp [h, herr, hlog]

theorem logInv_read_failed {s : State} (h : s.ph = .failed) (herr : s.err = .read)
    (hlog : CommandSent s ∧ s.buf.bytes.take s.idx <:+ s.rxlog) : LogInv s := by
  constructor <;> simp [h, herr, hlog]

theorem logInv_checksum_failed {s : State} (h : s.ph = .failed) (herr : s.err = .checksum)
    (hlog : CommandSent s ∧ s.buf.bytes <:+ s.rxlog) : LogInv s := by
  constructor <;> simp [h, herr, hlog]

theorem logInv_finishReply {s : State} (hlog : CommandSent s ∧ s.buf.bytes <:+ s.rxlog) : LogInv (finishReply s) := by
  cases h : valid s.buf with
  | true =>
    rw [finishReply_valid h]
    exact logInv_done rfl hlog
  | false =>
    rw [finishReply_invalid h]
    exact logInv_checksum_failed rfl rfl hlog

/-- R99: the byte that goes out is the next one of the command frame. -/
theorem commandPartlySent_sentByte {s : State} (hbuf : s.buf = buildFrame s.cmdl) (h8 : s.idx ≠ 8)
    (hlog : CommandPartlySent s) :
    (buildFrame s.cmdl).bytes.take (s.idx + 1).val <:+ s.txlog ++ [s.buf.get s.idx] := by
  rw [val_add_one_of_ne_last h8, hbuf]
  exact take_succ_suffix_append_get hlog

/-- R100: the bytes still to go complete the command frame. -/
theorem commandSent_sentRest {s : State} (hbuf : s.buf = buildFrame s.cmdl) (hlog : CommandPartlySent s) :
    (buildFrame s.cmdl).bytes <:+ s.txlog ++ s.buf.bytes.drop s.idx := by
  rw [CommandPartlySent, ← hbuf] at hlog
  have hall : s.buf.bytes.take s.idx ++ s.buf.bytes.drop s.idx <:+ s.txlog ++ s.buf.bytes.drop s.idx :=
    List.suffix_append_self_iff.mpr hlog
  rw [List.take_append_drop] at hall
  rwa [← hbuf]

/-- R102: the stored byte extends the reply received so far. -/
theorem reply_receivedByte {s : State} (v : Byte) (h8 : s.idx ≠ 8) (hlog : s.buf.bytes.take s.idx <:+ s.rxlog) :
    (s.buf.set s.idx v).bytes.take (s.idx + 1).val <:+ s.rxlog ++ [v] := by
  rw [val_add_one_of_ne_last h8, Frame.take_succ_set]
  exact List.suffix_append_self_iff.mpr hlog

/-- Settles O46: by the effect of the step; a send step appends bytes of the command frame because `BUF` holds it (`Inv`), a
receive step the bytes it stores. -/
theorem everyStepKeepsTheLogInvariant : Obligations.EveryStepKeepsTheLogInvariant := by
  intro s t hinv hlog hstep
  cases blockChange_of_step hstep with
  | unchanged =>
    exact ⟨hlog.sending, hlog.awaiting, hlog.done, hlog.write_failed, hlog.read_failed, hlog.checksum_failed⟩
  | accepted => exact (logInv_sending_iff rfl).mpr List.nil_suffix
  | reset => exact logInv_idle rfl
  | sentByte _ _ hp h8 =>
    exact (logInv_sending_iff (by exact hp)).mpr (commandPartlySent_sentByte (hinv.sending_frame hp) h8 (hlog.sending hp))
  | sentRest _ _ _ _ hp =>
    exact (logInv_awaiting_iff rfl).mpr ⟨commandSent_sentRest (hinv.sending_frame hp) (hlog.sending hp), List.nil_suffix⟩
  | writeFailed _ _ hp => exact logInv_write_failed rfl rfl (hlog.sending hp)
  | receivedByte v _ _ hp h8 =>
    obtain ⟨hsent, hreply⟩ := hlog.awaiting hp
    exact (logInv_awaiting_iff (by exact hp)).mpr ⟨hsent, reply_receivedByte v h8 hreply⟩
  | receivedRest _ _ b bs _ _ hp hb =>
    obtain ⟨hsent, hreply⟩ := hlog.awaiting hp
    refine logInv_finishReply ⟨hsent, ?_⟩
    rw [hb]
    exact List.suffix_append_self_iff.mpr hreply
  | readFailed _ _ hp => exact logInv_read_failed rfl rfl (hlog.awaiting hp)

/-- Settles O44: the reset state is idle. -/
theorem invariantsHoldAtReset : Obligations.InvariantsHoldAtReset :=
  ⟨by constructor <;> simp [State.reset], logInv_idle rfl⟩

end Sys2Proof.Machine
end

section
/-! PROOFS. The transaction end to end (spec/43_sequencer.md section 5): the machine run on HOST's request and the transport's
answers against the separately written `Run(c, A, B)`. A transaction ends in one of three ways: a write fails, a read fails, or
nine bytes are received. -/

namespace Sys2Proof.Machine

open Sys2Proof.Safety

/-! ## Answers up to the first error -/

theorem upToError_length_le {α : Type} (isError : α → Bool) (as : List α) :
    (upToError isError as).length ≤ as.length := by
  induction as with
  | nil => exact le_rfl
  | cons a as ih =>
    unfold upToError
    split
    · simp
    · simpa using ih

theorem upToError_eq_self {α : Type} {isError : α → Bool} {as : List α} (h : ∀ a ∈ as, isError a = false) :
    upToError isError as = as := by
  induction as with
  | nil => rfl
  | cons a as ih => simp [upToError, h a, ih fun b hb => h b (List.mem_cons_of_mem a hb)]

theorem eq_replicate_accept {A : List TxAnswer} (h : TxAnswer.error ∉ A) : A = List.replicate A.length .accept := by
  refine List.eq_replicate_of_mem fun a ha => ?_
  cases a with
  | accept => rfl
  | error => exact absurd ha h

theorem exists_map_data {B : List RxAnswer} (h : RxAnswer.error ∉ B) : ∃ bs : List Byte, B = bs.map .data := by
  induction B with
  | nil => exact ⟨[], rfl⟩
  | cons b B ih =>
    cases b with
    | error => exact absurd List.mem_cons_self h
    | data v =>
      obtain ⟨bs, rfl⟩ := ih fun hmem => h (List.mem_cons_of_mem _ hmem)
      exact ⟨v :: bs, rfl⟩

theorem exists_frame_bytes {bs : List Byte} (h : bs.length = 9) : ∃ f : Frame, f.bytes = bs := by
  match bs, h with
  | [b0, b1, b2, b3, b4, b5, b6, b7, b8], _ => exact ⟨⟨b0, b1, b2, b3, b4, b5, b6, b7, b8⟩, rfl⟩

/-- Nine answered reads without an error deliver a frame. -/
theorem exists_frame_data {B : List RxAnswer} (hlen : B.length = 9) (h : RxAnswer.error ∉ B) :
    ∃ f : Frame, B = f.bytes.map .data := by
  obtain ⟨bs, rfl⟩ := exists_map_data h
  obtain ⟨f, rfl⟩ := exists_frame_bytes (by simpa using hlen)
  exact ⟨f, rfl⟩

/-! ## The functions of the specification -/

theorem sentBytes_error (A : List TxAnswer) (bs : List Byte) : sentBytes (.error :: A) bs = [] := by
  cases bs <;> rfl

theorem sentBytes_accept_drop (A : List TxAnswer) (f : Frame) (k : Fin 9) :
    sentBytes (.accept :: A) (f.bytes.drop k) = f.get k :: sentBytes A (f.bytes.drop (k.val + 1)) := by
  rw [drop_eq_get_cons, sentBytes]

theorem deliveredBytes_error (B : List RxAnswer) : deliveredBytes (.error :: B) = [] := rfl

theorem sentBytes_replicate {n : Nat} {bs : List Byte} (h : bs.length = n) :
    sentBytes (List.replicate n .accept) bs = bs := by
  subst h
  induction bs with
  | nil => rfl
  | cons b bs ih => simp [List.replicate_succ, sentBytes, ih]

theorem deliveredBytes_map_data (bs : List Byte) : deliveredBytes (bs.map .data) = bs := by
  induction bs with
  | nil => rfl
  | cons b bs ih => simp [deliveredBytes, ih]

theorem replyBytes_map_data (bs : List Byte) : replyBytes (bs.map .data) = some bs := by
  induction bs with
  | nil => rfl
  | cons b bs ih => simp [replyBytes, ih]

theorem replyBytes_of_error {B : List RxAnswer} (h : RxAnswer.error ∈ B) : replyBytes B = none := by
  induction B with
  | nil => cases h
  | cons b B ih =>
    cases b with
    | error => rfl
    | data v => simp [replyBytes, ih (by simpa using h)]

theorem runTransaction_write_error {c : Command} {A : List TxAnswer} (B : List RxAnswer) (h : TxAnswer.error ∈ A) :
    runTransaction c A B = .writeError :=
  if_pos h

theorem runTransaction_read_error {c : Command} {A : List TxAnswer} {B : List RxAnswer} (hA : TxAnswer.error ∉ A)
    (hB : RxAnswer.error ∈ B) : runTransaction c A B = .readError := by
  simp [runTransaction, hA, replyBytes_of_error hB]

theorem runTransaction_reply {c : Command} {A : List TxAnswer} (f : Frame) (hA : TxAnswer.error ∉ A) :
    runTransaction c A (f.bytes.map .data) = replyResult c f := by
  simp only [runTransaction, hA, if_false, replyBytes_map_data]
  rfl

theorem replyResult_valid {f : Frame} (c : Command) (h : valid f = true) :
    replyResult c f = if c = .readCo2 then .okValue (conc f) else .okUnit := by
  unfold replyResult
  rw [if_neg (not_not.mpr ((valid_iff f).mp h))]
  cases c <;> rfl

theorem replyResult_invalid {f : Frame} (c : Command) (h : valid f = false) : replyResult c f = .checksumError :=
  if_pos ((valid_false_iff f).mp h)

/-! ## The runs of the machine -/

/-- The end of a reply leaves the block at rest with the result the specification gives the frame received. -/
theorem finishReply_ends (s : State) :
    AtRest (finishReply s) ∧ (finishReply s).ph ≠ .idle ∧ (finishReply s).result = replyResult s.cmdl s.buf := by
  cases h : valid s.buf with
  | true =>
    rw [finishReply_valid h, replyResult_valid s.cmdl h]
    exact ⟨.inr (.inl rfl), nofun, result_done rfl⟩
  | false =>
    rw [finishReply_invalid h, replyResult_invalid s.cmdl h]
    exact ⟨.inr (.inr rfl), nofun, result_failed rfl⟩

/-- The request of a command starts its transaction (R98). -/
theorem runSteps_request (n : Nat) {s : State} (c : Command) (is : List Input) (h : AtRest s) :
    runSteps (n + 1) { s with inputs := .present (.req (encodeReq c)) :: is } =
      runSteps n { startTransaction c s with inputs := is } := by
  have hdecode : decode (.req (encodeReq c)) = .ok (instrOfCommand c) := by simp only [decode, decodeReq_encodeReq]
  refine runSteps_next n ((step_present rfl hdecode).trans ?_)
  rw [exec_instrOfCommand]
  exact accept_ready c (ready_of_atRest h)

/-- R101: the bytes before the failing write go out, and the transaction ends. -/
theorem runSteps_write_fails {A : List TxAnswer} {s : State} (hp : s.ph = .sending) (hlen : A.length + s.idx.val = 9)
    (herr : TxAnswer.error ∈ A) :
    ∃ k, runSteps (upToError (· = .error) A).length
        { s with inputs := (upToError (· = .error) A).map TxAnswer.input } =
      .next (raiseError .write { s with
        inputs := [], txlog := s.txlog ++ sentBytes A (s.buf.bytes.drop s.idx), idx := k }) := by
  induction A generalizing s with
  | nil => cases herr
  | cons a A ih =>
    cases a with
    | error =>
      refine ⟨s.idx, ?_⟩
      rw [sentBytes_error, List.append_nil]
      exact runSteps_next 0 (txError_sending hp)
    | accept =>
      have herr : TxAnswer.error ∈ A := by simpa using herr
      have hpos := List.length_pos_of_mem herr
      rw [List.length_cons] at hlen
      have hlt : s.idx.val < 8 := by omega
      have h8 : s.idx ≠ 8 := Fin.ne_of_lt hlt
      have hidx := val_add_one_of_ne_last h8
      obtain ⟨k, hrun⟩ := ih (s := { s with txlog := s.txlog ++ [s.buf.get s.idx], idx := s.idx + 1 }) hp
        (by simp only [hidx]; omega) herr
      refine ⟨k, (runSteps_txNext _ _ hp h8).trans (hrun.trans ?_)⟩
      simp only [sentBytes_accept_drop, List.append_assoc, List.singleton_append, hidx]

/-- R105: the bytes before the failing read are received, and the transaction ends. -/
theorem runSteps_read_fails {B : List RxAnswer} {s : State} (hp : s.ph = .awaiting) (hlen : B.length + s.idx.val = 9)
    (herr : RxAnswer.error ∈ B) :
    ∃ b k, runSteps (upToError (· = .error) B).length
        { s with inputs := (upToError (· = .error) B).map RxAnswer.input } =
      .next (raiseError .read { s with
        inputs := [], buf := b, rxlog := s.rxlog ++ deliveredBytes B, idx := k }) := by
  induction B generalizing s with
  | nil => cases herr
  | cons a B ih =>
    cases a with
    | error =>
      refine ⟨s.buf, s.idx, ?_⟩
      rw [deliveredBytes_error, List.append_nil]
      exact runSteps_next 0 (rxError_awaiting hp)
    | data v =>
      have herr : RxAnswer.error ∈ B := by simpa using herr
      have hpos := List.length_pos_of_mem herr
      rw [List.length_cons] at hlen
      have hlt : s.idx.val < 8 := by omega
      have h8 : s.idx ≠ 8 := Fin.ne_of_lt hlt
      have hidx := val_add_one_of_ne_last h8
      obtain ⟨b, k, hrun⟩ := ih (s := { storeByte v s with idx := s.idx + 1 }) hp (by simp only [hidx]; omega) herr
      refine ⟨b, k, (runSteps_rxNext _ v _ hp h8).trans (hrun.trans ?_)⟩
      rw [deliveredBytes, List.append_cons]
      rfl

/-- R102 to R104: nine delivered bytes are the reply. -/
theorem runSteps_reply {s : State} (f : Frame) (hp : s.ph = .awaiting) (h0 : s.idx = 0) :
    runSteps 9 { s with inputs := f.bytes.map .rxData } =
      .next (finishReply { s with inputs := [], buf := f, rxlog := s.rxlog ++ f.bytes, idx := 8 }) := by
  have hrun := runSteps_rxData f.bytes [] hp (by simp [h0, Config.frameLen])
  have hreceive := receiveFrame_awaiting (s := { s with inputs := [] }) f hp
  have hmerge : mergeReply s.idx s.buf f = f := by rw [h0]; rfl
  have htake : f.bytes.take (9 - s.idx) = f.bytes := by rw [h0]; rfl
  rw [List.append_nil] at hrun
  simp only [hmerge, htake] at hreceive
  exact hrun.trans hreceive

/-! ## The transaction -/

theorem transportScript_write_error {A : List TxAnswer} (B : List RxAnswer) (h : TxAnswer.error ∈ A) :
    transportScript A B = (upToError (· = .error) A).map TxAnswer.input := by
  simp [transportScript, h]

theorem transportScript_accepted {A : List TxAnswer} (B : List RxAnswer) (hlen : A.length = 9)
    (h : TxAnswer.error ∉ A) :
    transportScript A B = List.replicate 9 .txAccept ++ (upToError (· = .error) B).map RxAnswer.input := by
  have hself : upToError (· = .error) A = A :=
    upToError_eq_self fun a ha => decide_eq_false fun heq => h (heq ▸ ha)
  rw [transportScript, if_neg h, hself, eq_replicate_accept h, hlen, List.map_replicate]
  rfl

theorem transactionScript_length_le (c : Command) {A : List TxAnswer} {B : List RxAnswer} (hA : A.length = 9)
    (hB : B.length = 9) : (transactionScript c A B).length ≤ 19 := by
  have hwrites := upToError_length_le (· = .error) A
  have hreads := upToError_length_le (· = .error) B
  rw [transactionScript, List.length_cons, transportScript, List.length_append, List.length_map]
  split
  · rw [List.length_nil]
    omega
  · rw [List.length_map]
    omega

/-- The state of a transaction whose command frame is sent (R100). -/
def commandAccepted (c : Command) (s : State) : State :=
  { startTransaction c s with txlog := s.txlog ++ (buildFrame c).bytes, ph := .awaiting }

/-- A transaction whose nine writes are accepted runs as its reads. -/
theorem runSteps_accepted {A : List TxAnswer} {B : List RxAnswer} (c : Command) (s : State) (hlen : A.length = 9)
    (h : TxAnswer.error ∉ A) :
    runSteps (transportScript A B).length { startTransaction c s with inputs := transportScript A B } =
      runSteps (upToError (· = .error) B).length
        { commandAccepted c s with inputs := (upToError (· = .error) B).map RxAnswer.input } := by
  have hsent := runSteps_txAccept 9 (s := startTransaction c s) ((upToError (· = .error) B).map RxAnswer.input) rfl rfl
  rw [transportScript_accepted B hlen h, List.length_append, List.length_replicate, List.length_map, runSteps_add, hsent]
  rfl

/-- Settles O47: acceptance, then one of the three ends of a transaction. -/
theorem everyTransactionIsRun : Obligations.EveryTransactionIsRun := by
  intro c A B s hA hB hrest
  refine ⟨transactionScript_length_le c hA hB, ?_⟩
  rw [transactionScript, List.length_cons, runSteps_request _ c _ hrest]
  by_cases hw : TxAnswer.error ∈ A
  · obtain ⟨k, hrun⟩ := runSteps_write_fails (s := startTransaction c s) rfl hA hw
    rw [transportScript_write_error B hw, List.length_map, hrun, runTransaction_write_error B hw, if_pos hw,
      List.append_nil]
    exact ⟨_, rfl, rfl, .inr (.inr rfl), nofun, rfl, result_failed rfl, rfl, rfl⟩
  have hsent : sentBytes A (buildFrame c).bytes = (buildFrame c).bytes := by
    rw [eq_replicate_accept hw, hA]
    exact sentBytes_replicate rfl
  rw [runSteps_accepted c s hA hw, hsent, if_neg hw]
  by_cases hr : RxAnswer.error ∈ B
  · obtain ⟨b, k, hrun⟩ := runSteps_read_fails (s := commandAccepted c s) rfl hB hr
    rw [hrun, runTransaction_read_error hw hr]
    exact ⟨_, rfl, rfl, .inr (.inr rfl), nofun, rfl, result_failed rfl, rfl, rfl⟩
  · obtain ⟨f, rfl⟩ := exists_frame_data hB hr
    have hself : upToError (· = .error) (f.bytes.map RxAnswer.data) = f.bytes.map .data :=
      upToError_eq_self fun a ha => decide_eq_false fun heq => hr (heq ▸ ha)
    have hrun := runSteps_reply (s := commandAccepted c s) f rfl rfl
    obtain ⟨hatRest, hph, hresult⟩ := finishReply_ends
      { commandAccepted c s with inputs := [], buf := f, rxlog := s.rxlog ++ f.bytes, idx := 8 }
    rw [hself, runTransaction_reply f hw, deliveredBytes_map_data]
    exact ⟨_, hrun, finishReply_inputs _, hatRest, hph, finishReply_cmdl _, hresult, finishReply_txlog _,
      finishReply_rxlog _⟩

end Sys2Proof.Machine
end

section
/-! PROOFS. What reset leaves unspecified (R22 (a), R23): before the first acceptance no step reads `BUF` or `CMDL`, and the
acceptance that ends that time writes both. -/

namespace Sys2Proof.Machine

open Sys2Proof.Safety

theorem sameButUnspecified_refl (s : State) : SameButUnspecified s s := ⟨rfl, .inr rfl, rfl⟩

theorem outcomesAgree_refl (o : Out) : OutcomesAgree o o := by
  cases o with
  | next s => exact sameButUnspecified_refl s
  | fault r => exact rfl
  | refused r => exact rfl

theorem ports_idle {s : State} (h : s.ph = .idle) (b : Frame) (c : Command) :
    State.ports { s with buf := b, cmdl := c } = s.ports := by
  simp [State.ports, State.ready, State.result, State.concPort, State.concDefined, h]

theorem sameButUnspecified_idle {s : State} (h : s.ph = .idle) (b : Frame) (c : Command) :
    SameButUnspecified s { s with buf := b, cmdl := c } :=
  ⟨rfl, .inl h, ports_idle h b c⟩

theorem samplePorts_idle {s : State} (h : s.ph = .idle) (b : Frame) (c : Command) :
    samplePorts { s with buf := b, cmdl := c } = { samplePorts s with buf := b, cmdl := c } := by
  have hconc : State.concDefined { s with buf := b, cmdl := c } = s.concDefined := by simp [State.concDefined, h]
  simp only [samplePorts, ports_idle h b c, hconc]

/-- While idle the block reacts to a packet alike whatever `BUF` and `CMDL` hold. -/
theorem runPacket_agrees {s : State} (p : Packet) (h : s.ph = .idle) (b : Frame) (c : Command) :
    OutcomesAgree (runPacket p s) (runPacket p { s with buf := b, cmdl := c }) := by
  have hready : s.ready = true := (ready_iff s).mpr (.inl h)
  cases p with
  | req w =>
    rw [runPacket_req, runPacket_req]
    cases decodeReq w with
    | none => exact sameButUnspecified_idle h b c
    | some d =>
      dsimp only
      rw [accept_ready d hready, accept_ready d (by exact hready)]
      exact outcomesAgree_refl _
  | tx f =>
    rw [runPacket_tx, runPacket_tx]
    cases decodeTx f with
    | error r => exact rfl
    | ok i =>
      dsimp only
      rw [sendFrame_not_offered (by simp [h]), sendFrame_not_offered (by simp [h])]
      exact rfl
  | rx f =>
    rw [runPacket_rx, runPacket_rx, receiveFrame_unasked f (by simp [h]), receiveFrame_unasked f (by simp [h])]
    exact sameButUnspecified_idle h b c

theorem react_agrees {s : State} (i : Input) (h : s.ph = .idle) (b : Frame) (c : Command) :
    OutcomesAgree (react i s) (react i { s with buf := b, cmdl := c }) := by
  have hsending : s.ph ≠ .sending := by simp [h]
  have hawaiting : s.ph ≠ .awaiting := by simp [h]
  cases i with
  | present p => exact runPacket_agrees p h b c
  | quiet => exact sameButUnspecified_idle h b c
  | sample =>
    rw [react, react, samplePorts_idle h b c]
    exact sameButUnspecified_idle (s := samplePorts s) h b c
  | reset => exact outcomesAgree_refl _
  | txAccept =>
    simp only [react]
    rw [txAccept_unasked hsending, txAccept_unasked (by exact hsending)]
    exact rfl
  | txError =>
    simp only [react]
    rw [txError_unasked hsending, txError_unasked (by exact hsending)]
    exact rfl
  | rxData v =>
    simp only [react]
    rw [rxData_unasked v hawaiting, rxData_unasked v (by exact hawaiting)]
    exact rfl
  | rxError =>
    simp only [react]
    rw [rxError_unasked hawaiting, rxError_unasked (by exact hawaiting)]
    exact rfl

theorem step_agrees_of_idle {s : State} (h : s.ph = .idle) (b : Frame) (c : Command) :
    OutcomesAgree (step s) (step { s with buf := b, cmdl := c }) := by
  by_cases hin : s.inputs = []
  · have hready : s.ready = true := (ready_iff s).mpr (.inl h)
    rw [step_nil hin, step_nil (by exact hin), noInput, noInput, if_pos hready, if_pos (by exact hready)]
    exact sameButUnspecified_idle h b c
  · obtain ⟨i, rest, hin⟩ := List.exists_cons_of_ne_nil hin
    rw [step_cons hin, step_cons (by exact hin)]
    exact react_agrees (s := { s with inputs := rest }) i h b c

theorem step_agrees {s t : State} (h : SameButUnspecified s t) : OutcomesAgree (step s) (step t) := by
  obtain ⟨ht, hidle | rfl, -⟩ := h
  · rw [ht]
    exact step_agrees_of_idle hidle t.buf t.cmdl
  · exact outcomesAgree_refl _

theorem runSteps_succ (k : Nat) (s : State) : runSteps (k + 1) s = andThen (step s) (runSteps k) := by
  cases h : step s with
  | next t => exact runSteps_next k h
  | fault r => exact runSteps_fault k h
  | refused r => exact runSteps_refused k h

theorem outcomesAgree_andThen {o o' : Out} {k : State → Out} (h : OutcomesAgree o o')
    (hk : ∀ s t, SameButUnspecified s t → OutcomesAgree (k s) (k t)) : OutcomesAgree (andThen o k) (andThen o' k) := by
  match o, o', h with
  | .next s, .next t, h => exact hk s t h
  | .fault _, .fault _, h => exact h
  | .refused _, .refused _, h => exact h

theorem runSteps_agree (k : Nat) {s t : State} (h : SameButUnspecified s t) :
    OutcomesAgree (runSteps k s) (runSteps k t) := by
  induction k generalizing s t with
  | zero => exact h
  | succ k ih =>
    rw [runSteps_succ, runSteps_succ]
    exact outcomesAgree_andThen (step_agrees h) fun _ _ => ih

/-- Settles O48: the relation holds between the two idle states, and every step keeps it. -/
theorem unspecifiedResetContentsAreNeverObserved : Obligations.UnspecifiedResetContentsAreNeverObserved :=
  fun k _ b c h => runSteps_agree k (sameButUnspecified_idle h b c)

end Sys2Proof.Machine
end
